-- ==== Sys2Proof/Word.lean ====
section
/-! DEFINITION. The datum types of the CRC-8 frame block and its two agents. Rules: spec/00_scope.md R7, R8, R12;
spec/30_encoding.md R74. -/

namespace Sys2Proof

/-- A byte datum: 8 bits, unsigned (R7, R8). -/
abbrev Byte := BitVec 8

/-- A descriptor word, or an address of the validator: 32 bits, unsigned (R7). -/
abbrev Word := BitVec 32

/-- A frame: exactly 64 bytes, index 0 first (R74). -/
abbrev Frame := Vector Byte 64

/-- The two agents that issue requests to the block (R12). -/
inductive Agent where
  /-- The receive-complete interrupt context: it issues only RB_PUSH. -/
  | producer
  /-- The main loop: it issues every other operation. -/
  | consumer
deriving DecidableEq, Repr, Inhabited

end Sys2Proof
end

