-- ==== Sys2Proof/Config.lean ====
section
/-! DEFINITION. What is fixed when the block is built (spec/00_scope.md R6, spec/10_state.md R36) and the free values: the
constants the source gives, the OPEN parameters, and the values the spec leaves open, which are uninterpreted constants. -/

namespace Sys2Proof

namespace Config

/-- `CRC_POLY`: x^8+x^2+x+1, the x^8 term implicit (R6). -/
def crcPoly : Byte := 0x07

/-- `CRC_INIT`: the initial value of a CRC (R6). -/
def crcInit : Byte := 0x00

/-- `RING_SLOTS` (R6). -/
def ringSlots : Nat := 256

/-- `RING_USABLE`: the most bytes the FIFO holds (R6, R127; spec/90_conflicts.md C3). -/
def ringUsable : Nat := 255

/-- `FRAME_LEN` (R6, R74). -/
def frameLen : Nat := 64

/-- `START_MARKER` (R6). -/
def startMarker : Byte := 0xB2

/-- `DEVICE_ADDR`, the fixed device address: the marker's value (R6). -/
def deviceAddr : Byte := startMarker

/-- `FORCE_BL_ENABLED`: "permanently disabled" (R6, R173). -/
def forceBlEnabled : Bool := false

/-- The number of byte addresses of the flash address space: 32-bit byte addresses (R51). -/
def flashSpace : Nat := 2 ^ 32

/-- `RAM_MASK`, OPEN (R6, R171): no source gives a value. DESIGN CHOICE: an uninterpreted constant, log 8. Safe. -/
opaque ramMask : Word

/-- `RAM_MATCH`, OPEN (R6, R171). DESIGN CHOICE: an uninterpreted constant, log 8. Safe. -/
opaque ramMatch : Word

/-- `FLASH_LO`, OPEN (R6, R172). DESIGN CHOICE: an uninterpreted constant, log 8. Safe. -/
opaque flashLo : Word

/-- `FLASH_HI`, OPEN (R6, R172). DESIGN CHOICE: an uninterpreted constant, log 8. Safe. -/
opaque flashHi : Word

/-- Bits 31..2 of `APP_BASE`, OPEN (R6, R52). DESIGN CHOICE: an uninterpreted constant, log 8. Safe. -/
opaque appBaseWord : BitVec 30

/-- What `RB_MEM` slot `slot` holds after the reset that made draw `draw`: unspecified (R23). DESIGN CHOICE: a free
value, log 4. Safe. -/
opaque ringAtReset (draw slot : Nat) : Byte

/-- What `PS_BUF` byte `index` holds after the reset that made draw `draw`: unspecified (R29). DESIGN CHOICE: a free
value, log 4. Safe. -/
opaque scratchAtReset (draw index : Nat) : Byte

/-- What the flash byte at `addr` reads as when the state lists none there: any value, with no law
(spec/93_implementation_defined.md, R175). DESIGN CHOICE: a free value, log 6. Safe. -/
opaque flashContents (addr : Nat) : Byte

/-- Whose request is served first when both agents have one pending and the state's `order` does not say: unspecified (R63,
R194). DESIGN CHOICE: a free value, log 2. Safe. -/
opaque servedFirst (draw : Nat) : Agent

end Config

/-- The OPEN parameters of a built block (R6, R36). `APP_BASE` is held by its bits 31..2, so that a block is configured only
with an aligned `APP_BASE` (R59); log 9. -/
structure OpenParams where
  /-- `RAM_MASK`. -/
  ramMask : Word
  /-- `RAM_MATCH`. -/
  ramMatch : Word
  /-- `FLASH_LO`. -/
  flashLo : Word
  /-- `FLASH_HI`. -/
  flashHi : Word
  /-- `APP_BASE[31:2]`; `APP_BASE[1:0]` is 0. -/
  appBaseWord : BitVec 30
deriving DecidableEq, Repr

/-- The parameters a block is asked to be built with, before they are checked (R6, R59, R173). -/
structure BuildParams where
  /-- `RAM_MASK`. -/
  ramMask : Word
  /-- `RAM_MATCH`. -/
  ramMatch : Word
  /-- `FLASH_LO`. -/
  flashLo : Word
  /-- `FLASH_HI`. -/
  flashHi : Word
  /-- `APP_BASE`, aligned or not. -/
  appBase : Word
  /-- `FORCE_BL_ENABLED`. -/
  forceBlEnabled : Bool
deriving DecidableEq, Repr

/-- The OPEN parameters of the hardware itself: uninterpreted (log 8). -/
def Config.openParams : OpenParams where
  ramMask := Config.ramMask
  ramMatch := Config.ramMatch
  flashLo := Config.flashLo
  flashHi := Config.flashHi
  appBaseWord := Config.appBaseWord

end Sys2Proof
end

