-- ==== Sys2Proof/Syntax.lean ====
section
/-! DEFINITION. The operations of the block, one constructor per row of spec/opcode_table.json, and a request as an agent
presents it. Rules: spec/30_encoding.md R70, R71. -/

namespace Sys2Proof

/-- The ten operations (R71), each with its operands. -/
inductive Instr where
  /-- CRC_INIT (R104). -/
  | crcInit
  /-- CRC_UPDATE d (R105). -/
  | crcUpdate (d : Byte)
  /-- CRC_READ (R106). -/
  | crcRead
  /-- CRC_COMPUTE s, a byte list of any length (R107). -/
  | crcCompute (seq : List Byte)
  /-- RB_PUSH d (R122). -/
  | rbPush (d : Byte)
  /-- RB_POP (R123). -/
  | rbPop
  /-- PS_FEED d (R141 to R144). -/
  | psFeed (d : Byte)
  /-- PS_POLL (R147). -/
  | psPoll
  /-- BV_CHECK sp, rv, force (R174). -/
  | bvCheck (sp rv : Word) (force : Bool)
  /-- BV_CHECK_IMAGE (R175). -/
  | bvCheckImage
deriving DecidableEq, Repr

/-- An operation request: the request word and its side operands (R70). `AGENT` is no field of it: it is the port the request
is presented on. -/
structure Request where
  /-- `REQ[15:0]`. -/
  req : BitVec 16
  /-- `SEQ`, used only by CRC_COMPUTE. -/
  seq : List Byte
  /-- `SP_IN[31:0]`, used only by BV_CHECK. -/
  spIn : Word
  /-- `RV_IN[31:0]`, used only by BV_CHECK. -/
  rvIn : Word
  /-- `FORCE_IN`, used only by BV_CHECK. -/
  forceIn : Bool
deriving DecidableEq, Repr

end Sys2Proof
end

