-- ==== Sys2Proof/WellFormed.lean ====
section
/-! DEFINITION. Which terms have a meaning: an operation issued by the agent that owns it, and build parameters a block may be
configured with. The operands themselves are well formed by their types. Rules: spec/00_scope.md R12, spec/30_encoding.md R71
and R82, spec/20_memory.md R59, spec/43_boot_validator.md R173. -/

namespace Sys2Proof

/-- The agent that may issue the operation: the producer issues only RB_PUSH, the consumer every other (R12, R71). -/
def Instr.owner : Instr → Agent
  | .crcInit => .consumer
  | .crcUpdate _ => .consumer
  | .crcRead => .consumer
  | .crcCompute _ => .consumer
  | .rbPush _ => .producer
  | .rbPop => .consumer
  | .psFeed _ => .consumer
  | .psPoll => .consumer
  | .bvCheck _ _ _ => .consumer
  | .bvCheckImage => .consumer

/-- One line of a program, `<agent>: <MNEMONIC> [operand]` (R82). -/
structure Line where
  /-- The issuing agent. -/
  agent : Agent
  /-- The operation with its operands. -/
  instr : Instr
deriving DecidableEq, Repr

/-- A line is well formed when its agent owns its operation (R12, R197). -/
def Line.wf (l : Line) : Bool := l.agent == l.instr.owner

/-- `APP_BASE` is a multiple of 4 (R59). -/
def BuildParams.aligned (p : BuildParams) : Bool := p.appBase.toNat % 4 == 0

/-- Parameters a block may be built with: an aligned `APP_BASE` (R59) and no enabled override (R173). -/
def BuildParams.wf (p : BuildParams) : Bool := p.aligned && !p.forceBlEnabled

end Sys2Proof
end

