-- ==== Sys2Proof/Decode.lean ====
section
/-! DEFINITION. Decoding a request, total, rejecting by name, and the encoder. Rules: spec/30_encoding.md R70 to R73;
spec/60_exceptions.md R194 (which reason is reported). -/

namespace Sys2Proof

/-- Why a request has no operation (R73, R191). -/
inductive Reject where
  /-- `ReservedOp`: `OP` is not in the table of R71. -/
  | reservedOp
  /-- `ReservedData`: nonzero `DATA` on an operation that takes no byte operand. -/
  | reservedData
  /-- `WrongAgent`: the operation belongs to the other agent. -/
  | wrongAgent
deriving DecidableEq, Repr

/-- `OP = REQ[15:8]` (R70). -/
def Request.op (r : Request) : Byte := r.req.extractLsb' 8 8

/-- `DATA = REQ[7:0]` (R70). -/
def Request.data (r : Request) : Byte := r.req.extractLsb' 0 8

/-- An operation without a byte operand: `DATA` must be 0x00 (R70, R73). -/
def Request.withoutData (r : Request) (i : Instr) : Except Reject Instr :=
  if r.data = 0x00#8 then .ok i else .error .reservedData

/-- The operation a request word and its side operands stand for: all 8 bits of `OP` are compared (R71, R72). Side operands
that the operation does not use are ignored (DESIGN CHOICE, log 14, unsafe). -/
def decodeWord (r : Request) : Except Reject Instr :=
  match r.op with
  | 0x01#8 => r.withoutData .crcInit
  | 0x02#8 => .ok (.crcUpdate r.data)
  | 0x03#8 => r.withoutData .crcRead
  | 0x04#8 => r.withoutData (.crcCompute r.seq)
  | 0x10#8 => .ok (.rbPush r.data)
  | 0x11#8 => r.withoutData .rbPop
  | 0x20#8 => .ok (.psFeed r.data)
  | 0x21#8 => r.withoutData .psPoll
  | 0x30#8 => r.withoutData (.bvCheck r.spIn r.rvIn r.forceIn)
  | 0x31#8 => r.withoutData .bvCheckImage
  | _ => .error .reservedOp

/-- Decoding a request of agent `a`. The reason reported is the first that applies of `ReservedOp`, `ReservedData`,
`WrongAgent` (R194). -/
def decode (a : Agent) (r : Request) : Except Reject Instr :=
  match decodeWord r with
  | .error e => .error e
  | .ok i => if a = i.owner then .ok i else .error .wrongAgent

/-- The operation selector of R71. -/
def Instr.opcode : Instr → Byte
  | .crcInit => 0x01
  | .crcUpdate _ => 0x02
  | .crcRead => 0x03
  | .crcCompute _ => 0x04
  | .rbPush _ => 0x10
  | .rbPop => 0x11
  | .psFeed _ => 0x20
  | .psPoll => 0x21
  | .bvCheck _ _ _ => 0x30
  | .bvCheckImage => 0x31

/-- The byte operand, 0x00 for an operation that has none (R71). -/
def Instr.dataByte : Instr → Byte
  | .crcUpdate d => d
  | .rbPush d => d
  | .psFeed d => d
  | .crcInit => 0x00
  | .crcRead => 0x00
  | .crcCompute _ => 0x00
  | .rbPop => 0x00
  | .psPoll => 0x00
  | .bvCheck _ _ _ => 0x00
  | .bvCheckImage => 0x00

/-- The request word `{OP, DATA}` (R70, R71). -/
def Instr.word (i : Instr) : BitVec 16 := i.opcode ++ i.dataByte

/-- The request of an operation. Side operands it does not use are empty or zero. -/
def encode : Instr → Request
  | .crcCompute seq => ⟨(Instr.crcCompute seq).word, seq, 0, 0, false⟩
  | .bvCheck sp rv force => ⟨(Instr.bvCheck sp rv force).word, [], sp, rv, force⟩
  | .crcInit => ⟨Instr.crcInit.word, [], 0, 0, false⟩
  | .crcUpdate d => ⟨(Instr.crcUpdate d).word, [], 0, 0, false⟩
  | .crcRead => ⟨Instr.crcRead.word, [], 0, 0, false⟩
  | .rbPush d => ⟨(Instr.rbPush d).word, [], 0, 0, false⟩
  | .rbPop => ⟨Instr.rbPop.word, [], 0, 0, false⟩
  | .psFeed d => ⟨(Instr.psFeed d).word, [], 0, 0, false⟩
  | .psPoll => ⟨Instr.psPoll.word, [], 0, 0, false⟩
  | .bvCheckImage => ⟨Instr.bvCheckImage.word, [], 0, 0, false⟩

/-- The units of the block; `OP[7:4]` selects one (R71). -/
inductive BlockUnit where
  /-- The CRC-8 generator. -/
  | crcGenerator
  /-- The ring-buffer FIFO. -/
  | ringFifo
  /-- The frame synchronizer/parser. -/
  | parser
  /-- The boot-vector-table validator. -/
  | validator
deriving DecidableEq, Repr

/-- The unit's selector, `OP[7:4]` (R71). -/
def BlockUnit.selector : BlockUnit → BitVec 4
  | .crcGenerator => 0x0
  | .ringFifo => 0x1
  | .parser => 0x2
  | .validator => 0x3

/-- The unit that performs the operation (R71, R104 to R107, R122, R123, R141, R147, R174, R175). -/
def Instr.blockUnit : Instr → BlockUnit
  | .crcInit => .crcGenerator
  | .crcUpdate _ => .crcGenerator
  | .crcRead => .crcGenerator
  | .crcCompute _ => .crcGenerator
  | .rbPush _ => .ringFifo
  | .rbPop => .ringFifo
  | .psFeed _ => .parser
  | .psPoll => .parser
  | .bvCheck _ _ _ => .validator
  | .bvCheckImage => .validator

/-- The row's `mask` in spec/opcode_table.json. -/
def Instr.tableMask : Instr → BitVec 16
  | .crcUpdate _ => 0xFF00
  | .rbPush _ => 0xFF00
  | .psFeed _ => 0xFF00
  | .crcInit => 0xFFFF
  | .crcRead => 0xFFFF
  | .crcCompute _ => 0xFFFF
  | .rbPop => 0xFFFF
  | .psPoll => 0xFFFF
  | .bvCheck _ _ _ => 0xFFFF
  | .bvCheckImage => 0xFFFF

/-- The row's `match` in spec/opcode_table.json. -/
def Instr.tableMatch : Instr → BitVec 16
  | .crcInit => 0x0100
  | .crcUpdate _ => 0x0200
  | .crcRead => 0x0300
  | .crcCompute _ => 0x0400
  | .rbPush _ => 0x1000
  | .rbPop => 0x1100
  | .psFeed _ => 0x2000
  | .psPoll => 0x2100
  | .bvCheck _ _ _ => 0x3000
  | .bvCheckImage => 0x3100

/-- A request word as the opcode table numbers its bits, with every side operand empty or zero (log 16). -/
def Request.ofTableWord (w : Nat) : Request := ⟨BitVec.ofNat 16 w, [], 0, 0, false⟩

/-- The port a request is presented on when nothing else says so: the owner of its operation; the consumer's for a word that
is no operation (log 16). -/
def Request.port (r : Request) : Agent :=
  match decodeWord r with
  | .ok i => i.owner
  | .error _ => .consumer

/-- The instruction the decoder reads from a request word of `nbits` bits (log 16). A request word has 16 bits (R70): a longer
one is none of the block's. -/
def decodeTableWord (nbits w : Nat) : Option Instr :=
  if nbits ≤ 16 then
    let r := Request.ofTableWord (w % 2 ^ nbits)
    match decode r.port r with
    | .ok i => some i
    | .error _ => none
  else none

end Sys2Proof
end

