-- ==== Sys2Proof/Machine/State.lean ====
section
/-! DEFINITION. The state of the block as plain data, the reasons a step can stop, and the state after reset. Rules:
spec/10_state.md R20 to R39, spec/70_reset_and_hazards.md R210, R211; what each field is and its reset value are listed in
INVENTORY.md under "State". -/

namespace Sys2Proof.Machine

/-- The faults of a step: none. The block raises no exceptions and has no trap (R190); "No path inside this core is fatal in the
sense of halting or crashing." So no step ends in a fault (log 15). -/
inductive Fault where
deriving DecidableEq, Repr

/-- Why a request, a configuration or a run has no meaning (R191). A refused request changes no state, and the run is refused.
All are safe: the hardware may go on, and nothing can be proved about a run that goes on past one (log 13). -/
inductive Refusal where
  /-- Raised by exec for an instruction without a meaning; no arm of this model raises it. Safe. -/
  | notModelled (mnemonic : String)
  /-- `ReservedOp`: raised by step for a request whose `OP` is not in the table of R71 (R73). Safe. -/
  | reservedOp
  /-- `ReservedData`: raised by step for nonzero `DATA` on an operation without a byte operand (R73). Safe. -/
  | reservedData
  /-- `WrongAgent`: raised by step for an operation issued by the agent that does not own it (R12). Safe. -/
  | wrongAgent
  /-- `MisalignedDescriptor`: raised by State.configure for an `APP_BASE` that is no multiple of 4 (R59). Safe. -/
  | misalignedDescriptor
  /-- `ForceEnabled`: raised by State.configure for `FORCE_BL_ENABLED = true` (R173). Safe. -/
  | forceEnabled
  /-- Raised by step when a producer's request is pending before reset completes (R213). Safe. -/
  | producerBeforeReset
deriving DecidableEq, Repr

/-- `PS_STATE` (R27). -/
inductive ParserState where
  /-- `WAIT_START`, the initial state. -/
  | waitStart
  /-- `COLLECTING`. -/
  | collecting
deriving DecidableEq, Repr

/-- The flash address space: (address, byte) pairs, addresses strictly rising (Memory.wf in Machine/Ops.lean). An address that
is not listed reads as a free value (log 6). -/
abbrev Memory := List Host.Cell

/-- The outputs of one operation (R70, R30, R35). A port the operation does not drive is `none`. -/
structure Response where
  /-- `VALID`. -/
  valid : Option Bool
  /-- `DOUT`; it has no value when `VALID` is 0 (R123). -/
  dout : Option Byte
  /-- `FRAME_OUT`, itself an Option of 64 bytes (R30). -/
  frameOut : Option (Option Frame)
  /-- `BOOT_OK`. -/
  bootOk : Option Bool
deriving DecidableEq, Repr

/-- The state: the fields R20 gives the block, what the spec gives it outside its registers (flash, configuration, outputs), and
the model's own fields (the pending requests, their order, the reset line, the free-value counter). -/
structure State where
  /-- `CRC_ACC` (R22). -/
  crcAcc : Byte
  /-- `RB_MEM[0..255]` (R23). -/
  rbMem : Vector Byte 256
  /-- `RB_HEAD` (R24). -/
  rbHead : Byte
  /-- `RB_TAIL` (R25). -/
  rbTail : Byte
  /-- `PS_STATE` (R27). -/
  psState : ParserState
  /-- `PS_POS`, 6 bits (R28). -/
  psPos : BitVec 6
  /-- `PS_BUF[0..63]` (R29). -/
  psBuf : Frame
  /-- The flash contents the state lists (R51; log 6). -/
  flash : Memory
  /-- The configuration the block was built with (R36; log 8). -/
  cfg : OpenParams
  /-- The producer's pending requests, oldest first (R21, R62; log 1). -/
  producer : List Request
  /-- The consumer's pending requests, oldest first (R21, R62; log 1). -/
  consumer : List Request
  /-- Who is served first at the next contested steps, the next of them first (R62, R63; log 2). -/
  order : List Agent
  /-- A reset has been requested and not yet performed (R210; log 11). -/
  resetIn : Bool
  /-- The outputs of the last step's operation (R70; log 3). -/
  out : Response
  /-- The number of free values drawn so far (log 5). -/
  draws : Nat
deriving DecidableEq, Repr

/-- The ring storage after the reset that makes draw `n`: unspecified in every slot (R23; log 4). -/
def ringStorage (n : Nat) : Vector Byte 256 := Vector.ofFn fun i => Config.ringAtReset n i

/-- The scratch frame after the reset that makes draw `n`: unspecified in every byte (R29; log 4). -/
def scratchStorage (n : Nat) : Frame := Vector.ofFn fun i => Config.scratchAtReset n i

/-- The machine right after reset (R39, R210, R211): no request issued yet, no output driven, no flash byte listed, the OPEN
configuration. -/
def State.reset : State where
  crcAcc := 0x00
  rbMem := ringStorage 0
  rbHead := 0
  rbTail := 0
  psState := .waitStart
  psPos := 0
  psBuf := scratchStorage 0
  flash := []
  cfg := Config.openParams
  producer := []
  consumer := []
  order := []
  resetIn := false
  out := ⟨none, none, none, none⟩
  draws := 1

end Sys2Proof.Machine
end

