-- ==== Sys2Proof/Machine/Operands.lean ====
section
/-! DEFINITION. The forms in which operands enter and results leave: indices, the fields of a frame, the descriptor address and
the response of each shape of operation. Rules: spec/41_ring_fifo.md R121, spec/30_encoding.md R70, R75, R76, R81,
spec/20_memory.md R52, spec/10_state.md R27. -/

namespace Sys2Proof.Machine

/-- `next(i) = (i + 1) mod 256` (R121). -/
def nextIndex (i : Byte) : Byte := i + 1

/-- The bit that stands for the parser's state when it is stored as one (R27). -/
def ParserState.bit : ParserState → Bool
  | .waitStart => false
  | .collecting => true

/-- `ADDR(f) = f[0]` (R76). -/
def frameAddr (f : Frame) : Byte := f[0]

/-- `STAT(f) = f[1]` (R76). -/
def frameStat (f : Frame) : Byte := f[1]

/-- `CMD(f) = f[2]` (R76). -/
def frameCmd (f : Frame) : Byte := f[2]

/-- `PARAM(f) = f[3]` (R76). -/
def frameParam (f : Frame) : Byte := f[3]

/-- `PAYLOAD(f) = f[4..62]`, 59 bytes, `f[4]` first (R76; spec/90_conflicts.md C1). -/
def framePayload (f : Frame) : List Byte := (f.toList.drop 4).take 59

/-- `CRC(f) = f[63]` (R76). -/
def frameCrc (f : Frame) : Byte := f[63]

/-- `f[0..62]`, the 63 bytes the CRC covers (R75, R78). -/
def frameBody (f : Frame) : List Byte := f.toList.take 63

/-- `APP_BASE`, a multiple of 4 (R52, R59). -/
def appBase (p : OpenParams) : Word := p.appBaseWord ++ 0#2

/-- The parameters a block is built with, from checked ones: `APP_BASE` keeps its bits 31..2 (R59). -/
def paramsOf (p : BuildParams) : OpenParams where
  ramMask := p.ramMask
  ramMatch := p.ramMatch
  flashLo := p.flashLo
  flashHi := p.flashHi
  appBaseWord := p.appBase.extractLsb' 2 30

/-- No output is driven: CRC_INIT, CRC_UPDATE, RB_PUSH (R104, R105, R122). -/
def quiet : Response := ⟨none, none, none, none⟩

/-- `DOUT <- b; VALID <- 1` (R106, R107, R123). -/
def dataOut (b : Byte) : Response := ⟨some true, some b, none, none⟩

/-- `VALID <- 0`; `DOUT` carries no value (R123). -/
def noData : Response := ⟨some false, none, none, none⟩

/-- RB_POP's outputs: `some b` or `none` (R123). -/
def popOut : Option Byte → Response
  | some b => dataOut b
  | none => noData

/-- `FRAME_OUT <- f` (R141 to R143). -/
def frameOnly (f : Option Frame) : Response := ⟨none, none, some f, none⟩

/-- PS_POLL's outputs: those of the pop, and `FRAME_OUT` (R147). -/
def pollOut (b : Option Byte) (f : Option Frame) : Response := { popOut b with frameOut := some f }

/-- `BOOT_OK <- ok` (R174). -/
def bootOut (ok : Bool) : Response := ⟨none, none, none, some ok⟩

end Sys2Proof.Machine
end

