-- ==== Sys2Proof/Machine/Flags.lean ====
section
/-! DEFINITION. The derived predicates of the ring FIFO: the block stores no flag (spec/10_state.md R32 to R35). -/

namespace Sys2Proof.Machine

/-- `RB_EMPTY = (RB_HEAD == RB_TAIL)` (R32). -/
def State.rbEmpty (s : State) : Bool := s.rbHead == s.rbTail

/-- `RB_FULL = (((RB_HEAD + 1) mod 256) == RB_TAIL)` (R33). -/
def State.rbFull (s : State) : Bool := nextIndex s.rbHead == s.rbTail

/-- `RB_COUNT = (RB_HEAD - RB_TAIL) mod 256` (R34). -/
def State.rbCount (s : State) : Nat := (s.rbHead - s.rbTail).toNat

end Sys2Proof.Machine
end

