-- ==== Sys2Proof/Machine/Ops.lean ====
section
/-! DEFINITION. The named operations the meanings share: the CRC byte step, the ring's push and pop with their sub-steps, the
parser's byte step, the validator's checks, the flash read, which pending request is served, reset, configuration, and what the
outside world does to the machine. The block raises no exceptions (spec/60_exceptions.md R190, R195, R196), so there is no taking
of one and no return from one here. -/

namespace Sys2Proof.Machine

/-! ## The CRC-8 function (spec/40_crc8.md R101, R102) -/

/-- One bit position of the byte step: shift left one, and XOR the polynomial if the top bit was set (R102). -/
def crcShift (a : Byte) : Byte := if a[7] then (a <<< 1) ^^^ Config.crcPoly else a <<< 1

/-- `n` bit positions. -/
def crcShifts : Nat → Byte → Byte
  | 0, a => a
  | n + 1, a => crcShifts n (crcShift a)

/-- `crc_step(acc, b)` (R102). -/
def crcStep (acc b : Byte) : Byte := crcShifts 8 (acc ^^^ b)

/-- `CRC8(s)`: a left fold of the byte step from 0x00, with no final XOR and no reflection (R101). -/
def crc8 (s : List Byte) : Byte := s.foldl crcStep Config.crcInit

/-- A frame is CRC-valid when `f[63] == CRC8(f[0..62])` (R78). -/
def crcValid (f : Frame) : Bool := frameCrc f == crc8 (frameBody f)

/-! ## Single updates of the state -/

/-- The operation's outputs are `r`. -/
def State.respond (r : Response) (s : State) : State := { s with out := r }

/-- `CRC_ACC <- a`. -/
def State.setCrc (a : Byte) (s : State) : State := { s with crcAcc := a }

/-- `RB_MEM[RB_HEAD] <- d`: the first sub-step of a push (R57, R122). -/
def State.pushWrite (d : Byte) (s : State) : State :=
  { s with rbMem := s.rbMem.set s.rbHead.toNat d s.rbHead.isLt }

/-- `RB_HEAD <- next(RB_HEAD)`: the last write of a push (R57, R122). -/
def State.pushAdvance (s : State) : State := { s with rbHead := nextIndex s.rbHead }

/-- `RB_TAIL <- next(RB_TAIL)`: the last write of a pop (R57, R123). -/
def State.popAdvance (s : State) : State := { s with rbTail := nextIndex s.rbTail }

/-- The start marker opens a frame in the parser (R141). -/
def State.openFrame (d : Byte) (s : State) : State :=
  { s with psBuf := s.psBuf.set 0 d, psPos := 1, psState := .collecting }

/-- A byte of a frame is stored at `PS_POS` (R142). -/
def State.storeByte (d : Byte) (s : State) : State :=
  { s with psBuf := s.psBuf.set s.psPos.toNat d s.psPos.isLt, psPos := s.psPos + 1 }

/-- The 64th byte is stored and the parser returns to WAIT_START, whatever the CRC says (R143). The bytes of the frame stay in
`PS_BUF`: what it holds between frames, the spec leaves open (spec/93_implementation_defined.md; DESIGN CHOICE, log 23). -/
def State.closeFrame (d : Byte) (s : State) : State :=
  { s with psBuf := s.psBuf.set 63 d, psState := .waitStart, psPos := 0 }

/-! ## The ring FIFO (spec/41_ring_fifo.md) -/

/-- `RB_MEM[i]`. -/
def State.slot (s : State) (i : Byte) : Byte := s.rbMem[i.toNat]'i.isLt

/-- RB_PUSH's effect on the ring: on a full buffer the byte is dropped (R122). -/
def State.ringPush (d : Byte) (s : State) : State :=
  if s.rbFull then s else (s.pushWrite d).pushAdvance

/-- RB_POP's result and effect on the ring (R123). -/
def State.ringPop (s : State) : Option Byte × State :=
  if s.rbEmpty then (none, s) else (some (s.slot s.rbTail), s.popAdvance)

/-! ## The parser (spec/42_frame_parser.md) -/

/-- `FRAME_OUT` for the 64 bytes collected: the frame if it is CRC-valid (R143, R144). -/
def yielded (f : Frame) : Option Frame := if crcValid f then some f else none

/-- The byte step: `FRAME_OUT` and the parser's next state (R141, R142, R143). -/
def State.feed (d : Byte) (s : State) : Option Frame × State :=
  match s.psState with
  | .waitStart => if d = Config.startMarker then (none, s.openFrame d) else (none, s)
  | .collecting =>
    if s.psPos = 63 then (yielded (s.closeFrame d).psBuf, s.closeFrame d) else (none, s.storeByte d)

/-! ## Flash (spec/20_memory.md R51 to R53) -/

/-- The byte the memory lists at an address, if it lists one. -/
def Memory.read (m : Memory) (a : Nat) : Option Byte :=
  match m with
  | [] => none
  | (k, b) :: rest => if k = a then some b else Memory.read rest a

/-- The memory with `b` listed at `a`, the addresses still rising. -/
def Memory.insert (m : Memory) (a : Nat) (b : Byte) : Memory :=
  match m with
  | [] => [(a, b)]
  | (k, c) :: rest =>
    if a < k then (a, b) :: (k, c) :: rest
    else if a = k then (a, b) :: rest
    else (k, c) :: Memory.insert rest a b

/-- Programming one flash byte, from outside the block (R51). An address outside the address space does not exist, and nothing
is listed there. -/
def Memory.write (m : Memory) (a : Nat) (b : Byte) : Memory :=
  if a < Config.flashSpace then Memory.insert m a b else m

/-- The addresses rise strictly from above `lo` on, all within the address space. -/
def Memory.risingFrom : Option Nat → Memory → Bool
  | _, [] => true
  | lo, (k, _) :: rest =>
    (match lo with | none => true | some l => decide (l < k)) && decide (k < Config.flashSpace) &&
      Memory.risingFrom (some k) rest

/-- The canonical form: addresses strictly rising, within the address space. An unlisted address has no value in the list (it
reads as a free value), so no entry can equal it (log 6). -/
def Memory.wf (m : Memory) : Bool := Memory.risingFrom none m

/-- `MemByte(a)`: the listed byte, else a free value (R175, log 6); past the top of the address space nothing is listed (log 7). -/
def State.flashByte (s : State) (a : Nat) : Byte := (Memory.read s.flash a).getD (Config.flashContents a)

/-- `MemRead(a, 4)`, little-endian: `{MemByte(a+3), MemByte(a+2), MemByte(a+1), MemByte(a)}` (R53; D15, log 10). -/
def State.memRead4 (s : State) (a : Nat) : Word :=
  s.flashByte (a + 3) ++ s.flashByte (a + 2) ++ s.flashByte (a + 1) ++ s.flashByte a

/-- `SP_WORD = MemRead(APP_BASE, 4)` (R81). -/
def State.spWord (s : State) : Word := s.memRead4 (appBase s.cfg).toNat

/-- `RV_WORD = MemRead(APP_BASE + 4, 4)` (R81). -/
def State.rvWord (s : State) : Word := s.memRead4 ((appBase s.cfg).toNat + 4)

/-! ## The validator (spec/43_boot_validator.md) -/

/-- `sp_ok(sp) = ((sp & RAM_MASK) == RAM_MATCH)` (R171). -/
def spOk (p : OpenParams) (sp : Word) : Bool := (sp &&& p.ramMask) == p.ramMatch

/-- `rv_ok(rv) = (FLASH_LO <= rv) and (rv <= FLASH_HI)`, unsigned, the word as read (R172). -/
def rvOk (p : OpenParams) (rv : Word) : Bool := p.flashLo.ule rv && rv.ule p.flashHi

/-- `force_ok(force) = not (FORCE_BL_ENABLED and force)` (R173). -/
def forceOk (force : Bool) : Bool := !(Config.forceBlEnabled && force)

/-- `BOOT_OK` for given words (R174). -/
def bootOk (p : OpenParams) (sp rv : Word) (force : Bool) : Bool := spOk p sp && rvOk p rv && forceOk force

/-! ## Which request is served (spec/20_memory.md R56, R62, R63) -/

/-- Who goes first when both agents have a request pending: what `order` says, else a free value (R63, log 2). -/
def State.arbitrate (s : State) : Agent × State :=
  match s.order with
  | a :: rest => (a, { s with order := rest })
  | [] => (Config.servedFirst s.draws, { s with draws := s.draws + 1 })

/-- The request served next, with its agent, and the state with that request taken from its port. Each port is served in issue
order; `none` when no request is pending (R62). -/
def State.serve (s : State) : Option (Agent × Request × State) :=
  match s.producer, s.consumer with
  | [], [] => none
  | p :: ps, [] => some (.producer, p, { s with producer := ps })
  | [], c :: cs => some (.consumer, c, { s with consumer := cs })
  | p :: ps, c :: cs =>
    match s.arbitrate with
    | (.producer, t) => some (.producer, p, { t with producer := ps })
    | (.consumer, t) => some (.consumer, c, { t with consumer := cs })

/-- The refusal of a request that does not decode (R191). -/
def refusalOf : Reject → Refusal
  | .reservedOp => .reservedOp
  | .reservedData => .reservedData
  | .wrongAgent => .wrongAgent

/-! ## Reset and configuration (spec/70_reset_and_hazards.md R210, spec/20_memory.md R59, spec/43_boot_validator.md R173) -/

/-- The one reset: every field of R39 in one atomic step (R210). The storage is unspecified again (a new draw), no output is
driven, the reset line is answered, and after it no agent has issued an operation (R211): both ports are empty. Flash, the
configuration and the order of service are not the block's to reset (log 11). -/
def State.blockReset (s : State) : State :=
  { s with
    crcAcc := 0x00
    rbMem := ringStorage s.draws
    rbHead := 0
    rbTail := 0
    psState := .waitStart
    psPos := 0
    psBuf := scratchStorage s.draws
    producer := []
    consumer := []
    resetIn := false
    out := quiet
    draws := s.draws + 1 }

/-- A step while a reset is requested: a producer's request pending before reset completes is refused (R213, log 12).
It is not decoded, so this is the reason reported even where one of R191 applies too: R194 orders only those of R191 (DESIGN
CHOICE, log 12). -/
def State.resetStep (s : State) : Host.Outcome State Fault Refusal :=
  match s.producer with
  | [] => .next s.blockReset
  | _ :: _ => .refused .producerBeforeReset

/-- A step with no request pending: every field holds, and no output is driven (R146, log 18). -/
def State.idle (s : State) : State := s.respond quiet

/-- The machine after reset of a block built with the parameters `p`: refused for a misaligned `APP_BASE` (R59) or an enabled
override (R173). -/
def State.configure (p : BuildParams) : Host.Outcome State Fault Refusal :=
  if p.aligned = false then .refused .misalignedDescriptor
  else if p.forceBlEnabled = true then .refused .forceEnabled
  else .next { State.reset with cfg := paramsOf p }

/-! ## What the outside world does to the machine, between steps -/

/-- Agent `a` issues the request `r` (R21, R62). -/
def State.issue (a : Agent) (r : Request) (s : State) : State :=
  match a with
  | .producer => { s with producer := s.producer ++ [r] }
  | .consumer => { s with consumer := s.consumer ++ [r] }

/-- The reset line is asserted (R210). -/
def State.requestReset (s : State) : State := { s with resetIn := true }

/-- Someone outside the block programs a flash byte (R51, R175). -/
def State.programFlash (a : Nat) (b : Byte) (s : State) : State := { s with flash := Memory.write s.flash a b }

/-- The request `r` of agent `a` is the one the next step serves: it stands first on its port, goes first if the other agent has
a request pending too, and no reset is pending (log 1, log 16). -/
def State.presentFirst (a : Agent) (r : Request) (s : State) : State :=
  match a with
  | .producer =>
    { s with
      producer := r :: s.producer
      order := if s.consumer = [] then s.order else .producer :: s.order
      resetIn := false }
  | .consumer =>
    { s with
      consumer := r :: s.consumer
      order := if s.producer = [] then s.order else .consumer :: s.order
      resetIn := false }

end Sys2Proof.Machine
end

