-- ==== Sys2Proof/Machine/Crc.lean ====
section
/-! DEFINITION. The CRC-8 generator's operations (spec/40_crc8.md R104 to R107). -/

namespace Sys2Proof.Machine

/-- CRC_INIT: `CRC_ACC <- 0x00` (R104). -/
def execCrcInit (s : State) : Host.Outcome State Fault Refusal :=
  .next ((s.setCrc Config.crcInit).respond quiet)

/-- CRC_UPDATE d: `CRC_ACC <- crc_step(CRC_ACC, d)` (R105). -/
def execCrcUpdate (d : Byte) (s : State) : Host.Outcome State Fault Refusal :=
  .next ((s.setCrc (crcStep s.crcAcc d)).respond quiet)

/-- CRC_READ: `DOUT <- CRC_ACC; VALID <- 1` (R106). -/
def execCrcRead (s : State) : Host.Outcome State Fault Refusal :=
  .next (s.respond (dataOut s.crcAcc))

/-- CRC_COMPUTE s: `r <- CRC8(s); CRC_ACC <- r; DOUT <- r; VALID <- 1` (R107). -/
def execCrcCompute (seq : List Byte) (s : State) : Host.Outcome State Fault Refusal :=
  .next ((s.setCrc (crc8 seq)).respond (dataOut (crc8 seq)))

end Sys2Proof.Machine
end

