-- ==== Sys2Proof/Machine/Parser.lean ====
section
/-! DEFINITION. The frame parser's operations (spec/42_frame_parser.md R141 to R144, R147). -/

namespace Sys2Proof.Machine

/-- PS_FEED d: one byte step of the parser (R141, R142, R143, R144). -/
def execPsFeed (d : Byte) (s : State) : Host.Outcome State Fault Refusal :=
  .next ((s.feed d).2.respond (frameOnly (s.feed d).1))

/-- PS_POLL: pop a byte from the ring and feed it to the parser, as one atomic operation; on an empty ring nothing is fed
(R147). -/
def execPsPoll (s : State) : Host.Outcome State Fault Refusal :=
  match s.ringPop with
  | (some b, t) => .next ((t.feed b).2.respond (pollOut (some b) (t.feed b).1))
  | (none, t) => .next (t.respond (pollOut none none))

end Sys2Proof.Machine
end

