-- ==== Sys2Proof/Machine/Ring.lean ====
section
/-! DEFINITION. The ring FIFO's operations (spec/41_ring_fifo.md R122, R123). -/

namespace Sys2Proof.Machine

/-- RB_PUSH d: enqueue one byte, or drop it when the buffer is full; no output either way (R122). -/
def execRbPush (d : Byte) (s : State) : Host.Outcome State Fault Refusal :=
  .next ((s.ringPush d).respond quiet)

/-- RB_POP: dequeue one byte, or answer `VALID = 0` when the buffer is empty (R123). -/
def execRbPop (s : State) : Host.Outcome State Fault Refusal :=
  .next (s.ringPop.2.respond (popOut s.ringPop.1))

end Sys2Proof.Machine
end

