-- ==== Sys2Proof/Machine/Validator.lean ====
section
/-! DEFINITION. The boot-vector-table validator's operations (spec/43_boot_validator.md R174, R175). -/

namespace Sys2Proof.Machine

/-- BV_CHECK sp, rv, force: decide on the given words (R174). -/
def execBvCheck (sp rv : Word) (force : Bool) (s : State) : Host.Outcome State Fault Refusal :=
  .next (s.respond (bootOut (bootOk s.cfg sp rv force)))

/-- BV_CHECK_IMAGE: decide on the words read from flash; `FORCE_IN` is not sampled (R175). Both words are read from one
flash state: whether the flash may change between the two reads of one operation, the spec leaves open (DESIGN CHOICE, log 22,
unsafe). -/
def execBvCheckImage (s : State) : Host.Outcome State Fault Refusal :=
  .next (s.respond (bootOut (bootOk s.cfg s.spWord s.rvWord false)))

end Sys2Proof.Machine
end

