-- ==== Sys2Proof/Machine/Dispatch.lean ====
section
/-! DEFINITION. One arm per operation of spec/opcode_table.json. -/

namespace Sys2Proof.Machine

/-- The effect of an operation, taken by its own agent (spec/30_encoding.md R71). -/
def exec (i : Instr) (s : State) : Host.Outcome State Fault Refusal :=
  match i with
  | .crcInit => Sys2Proof.Machine.execCrcInit s
  | .crcUpdate d => Sys2Proof.Machine.execCrcUpdate d s
  | .crcRead => Sys2Proof.Machine.execCrcRead s
  | .crcCompute seq => Sys2Proof.Machine.execCrcCompute seq s
  | .rbPush d => Sys2Proof.Machine.execRbPush d s
  | .rbPop => Sys2Proof.Machine.execRbPop s
  | .psFeed d => Sys2Proof.Machine.execPsFeed d s
  | .psPoll => Sys2Proof.Machine.execPsPoll s
  | .bvCheck sp rv force => Sys2Proof.Machine.execBvCheck sp rv force s
  | .bvCheckImage => Sys2Proof.Machine.execBvCheckImage s

end Sys2Proof.Machine
end

