-- ==== Sys2Proof/Machine/Step.lean ====
section
/-! DEFINITION. One step of the block: a pending reset is performed; else the next request is decoded and run as one atomic
operation; else the block holds its state. Rules: spec/20_memory.md R56, R62, R63; spec/70_reset_and_hazards.md R210, R213;
spec/60_exceptions.md R191. -/

namespace Sys2Proof.Machine

/-- One step. -/
def step (s : State) : Host.Outcome State Fault Refusal :=
  if s.resetIn = true then s.resetStep
  else
    match s.serve with
    | none => .next s.idle
    | some (a, r, t) =>
      match decode a r with
      | .ok i => exec i t
      | .error e => .refused (refusalOf e)

/-- The request word `w` of `nbits` bits (side operands empty or zero) presented by the agent that owns its operation, so that
the next step serves it (log 1, log 16). -/
def State.withFetchWord (s : State) (nbits w : Nat) : State :=
  let r := Request.ofTableWord (w % 2 ^ nbits)
  s.presentFirst r.port r

end Sys2Proof.Machine
end

