-- ==== Sys2Proof/Machine/Errors.lean ====
section
/-! DEFINITION. The error kinds of the block: labels of what an operation meets, signalled on no output and stored in no field
(spec/60_exceptions.md R192; log 21). -/

namespace Sys2Proof.Machine

/-- The error kinds (R192). -/
inductive ErrorKind where
  /-- `E_SYNC`: sync loss. -/
  | sync
  /-- `E_CRC`: CRC mismatch. -/
  | crc
  /-- `E_OVF`: FIFO overflow. -/
  | overflow
  /-- `E_EMPTY`: FIFO empty. -/
  | empty
  /-- `E_IMAGE`: invalid application image. -/
  | image
deriving DecidableEq, Repr

/-- The byte the operation feeds to the parser in state `s`, if it feeds one (R141, R147). -/
def fedByte (i : Instr) (s : State) : Option Byte :=
  match i with
  | .psFeed d => some d
  | .psPoll => if s.rbEmpty then none else some (s.slot s.rbTail)
  | .crcInit => none
  | .crcUpdate _ => none
  | .crcRead => none
  | .crcCompute _ => none
  | .rbPush _ => none
  | .rbPop => none
  | .bvCheck _ _ _ => none
  | .bvCheckImage => none

/-- The row's condition for a byte fed in WAIT_START: not the start marker. -/
def syncLost (s : State) (d : Byte) : Bool := s.psState == .waitStart && d != Config.startMarker

/-- The row's condition for the 64th byte of a frame: the CRC does not match. -/
def crcMismatch (s : State) (d : Byte) : Bool :=
  s.psState == .collecting && s.psPos == 63 && !crcValid (s.psBuf.set 63 d)

/-- The row's condition for a push: the ring is full. -/
def overflows (i : Instr) (s : State) : Bool :=
  match i with
  | .crcInit => false
  | .crcUpdate _ => false
  | .crcRead => false
  | .crcCompute _ => false
  | .rbPush _ => s.rbFull
  | .rbPop => false
  | .psFeed _ => false
  | .psPoll => false
  | .bvCheck _ _ _ => false
  | .bvCheckImage => false

/-- The row's condition for an operation that takes a byte from the ring: it is empty. -/
def findsEmpty (i : Instr) (s : State) : Bool :=
  match i with
  | .crcInit => false
  | .crcUpdate _ => false
  | .crcRead => false
  | .crcCompute _ => false
  | .rbPush _ => false
  | .rbPop => s.rbEmpty
  | .psFeed _ => false
  | .psPoll => s.rbEmpty
  | .bvCheck _ _ _ => false
  | .bvCheckImage => false

/-- The row's condition for a check: one of the checks of R171 and R172 fails. -/
def imageInvalid (i : Instr) (s : State) : Bool :=
  match i with
  | .crcInit => false
  | .crcUpdate _ => false
  | .crcRead => false
  | .crcCompute _ => false
  | .rbPush _ => false
  | .rbPop => false
  | .psFeed _ => false
  | .psPoll => false
  | .bvCheck sp rv _ => !(spOk s.cfg sp && rvOk s.cfg rv)
  | .bvCheckImage => !(spOk s.cfg s.spWord && rvOk s.cfg s.rvWord)

/-- Whether the operation meets the row's condition in state `s`: the table of R192, row by row. -/
def kindMet (k : ErrorKind) (i : Instr) (s : State) : Bool :=
  match k with
  | .sync => (fedByte i s).any (syncLost s)
  | .crc => (fedByte i s).any (crcMismatch s)
  | .overflow => overflows i s
  | .empty => findsEmpty i s
  | .image => imageInvalid i s

end Sys2Proof.Machine
end

