-- ==== Sys2Proof/Machine/SubSteps.lean ====
section
/-! DEFINITION. RB_PUSH and RB_POP split into sub-steps, as an implementation that does not make them atomic performs them
(spec/20_memory.md R57): each tests the other side's index, then touches its slot, then advances its own index, the last
write of the operation. exec does not use these: the block's operations are atomic (R56). -/

namespace Sys2Proof.Machine

/-- A sub-step of a push or of a pop (R57, R122, R123, R128). -/
inductive SubStep where
  /-- A push tests for full: it reads `RB_TAIL`. -/
  | testFull
  /-- A push writes its byte to the slot at `RB_HEAD`. -/
  | writeSlot (d : Byte)
  /-- A push advances `RB_HEAD`. -/
  | advanceHead
  /-- A pop tests for empty: it reads `RB_HEAD`. -/
  | testEmpty
  /-- A pop reads the slot at `RB_TAIL`. -/
  | readSlot
  /-- A pop advances `RB_TAIL` and answers. -/
  | advanceTail
deriving DecidableEq, Repr

/-- The block with what each side keeps for itself between the sub-steps of an operation. -/
structure SubRun where
  /-- The block. -/
  state : State
  /-- The push under way found room. -/
  room : Bool
  /-- The pop under way found a byte. -/
  found : Bool
  /-- The byte the pop under way has read. -/
  held : Option Byte
  /-- The results of the pops that have answered, oldest first. -/
  answers : List (Option Byte)
deriving DecidableEq, Repr

/-- The effect of a sub-step: after a failed test the rest of the operation does nothing (R122, R123). -/
def SubStep.run (r : SubRun) (k : SubStep) : SubRun :=
  match k with
  | .testFull => { r with room := !r.state.rbFull }
  | .writeSlot d => { r with state := if r.room then r.state.pushWrite d else r.state }
  | .advanceHead => { r with state := if r.room then r.state.pushAdvance else r.state }
  | .testEmpty => { r with found := !r.state.rbEmpty }
  | .readSlot => { r with held := if r.found then some (r.state.slot r.state.rbTail) else none }
  | .advanceTail =>
    { r with
      state := if r.found then r.state.popAdvance else r.state
      answers := r.answers ++ [r.held] }

/-- Sub-steps performed one after the other, from between two operations of both sides. -/
def runSubSteps (ks : List SubStep) (s : State) : SubRun := ks.foldl SubStep.run ⟨s, false, false, none, []⟩

/-- The sub-steps of RB_PUSH d, in order (R57). -/
def pushSubSteps (d : Byte) : List SubStep := [.testFull, .writeSlot d, .advanceHead]

/-- The sub-steps of RB_POP, in order (R57). -/
def popSubSteps : List SubStep := [.testEmpty, .readSlot, .advanceTail]

end Sys2Proof.Machine
end

