-- ==== Sys2Proof/Safety.lean ====
section
/-! DEFINITION. The terms in which claims about the block are made: its invariants, the queue the ring stands for, sequences of
operations and their outputs, merges of the two agents' sequences, the frame windows of a byte stream, and what two states have
in common for anyone who sees only outputs. -/

namespace Sys2Proof.Machine

/-- A request with the given selector and `DATA`, side operands empty or zero (spec/30_encoding.md R70). -/
def requestOf (op d : Byte) : Request := ⟨op ++ d, [], 0, 0, false⟩

/-- The 256-entry table `T` of spec/95_test_vectors.md section 2, of which R102 says `crc_step(acc, b) = T[acc ^ b]`. -/
def byteTable : List Byte :=
  [0x00, 0x07, 0x0E, 0x09, 0x1C, 0x1B, 0x12, 0x15, 0x38, 0x3F, 0x36, 0x31, 0x24, 0x23, 0x2A, 0x2D] ++
  [0x70, 0x77, 0x7E, 0x79, 0x6C, 0x6B, 0x62, 0x65, 0x48, 0x4F, 0x46, 0x41, 0x54, 0x53, 0x5A, 0x5D] ++
  [0xE0, 0xE7, 0xEE, 0xE9, 0xFC, 0xFB, 0xF2, 0xF5, 0xD8, 0xDF, 0xD6, 0xD1, 0xC4, 0xC3, 0xCA, 0xCD] ++
  [0x90, 0x97, 0x9E, 0x99, 0x8C, 0x8B, 0x82, 0x85, 0xA8, 0xAF, 0xA6, 0xA1, 0xB4, 0xB3, 0xBA, 0xBD] ++
  [0xC7, 0xC0, 0xC9, 0xCE, 0xDB, 0xDC, 0xD5, 0xD2, 0xFF, 0xF8, 0xF1, 0xF6, 0xE3, 0xE4, 0xED, 0xEA] ++
  [0xB7, 0xB0, 0xB9, 0xBE, 0xAB, 0xAC, 0xA5, 0xA2, 0x8F, 0x88, 0x81, 0x86, 0x93, 0x94, 0x9D, 0x9A] ++
  [0x27, 0x20, 0x29, 0x2E, 0x3B, 0x3C, 0x35, 0x32, 0x1F, 0x18, 0x11, 0x16, 0x03, 0x04, 0x0D, 0x0A] ++
  [0x57, 0x50, 0x59, 0x5E, 0x4B, 0x4C, 0x45, 0x42, 0x6F, 0x68, 0x61, 0x66, 0x73, 0x74, 0x7D, 0x7A] ++
  [0x89, 0x8E, 0x87, 0x80, 0x95, 0x92, 0x9B, 0x9C, 0xB1, 0xB6, 0xBF, 0xB8, 0xAD, 0xAA, 0xA3, 0xA4] ++
  [0xF9, 0xFE, 0xF7, 0xF0, 0xE5, 0xE2, 0xEB, 0xEC, 0xC1, 0xC6, 0xCF, 0xC8, 0xDD, 0xDA, 0xD3, 0xD4] ++
  [0x69, 0x6E, 0x67, 0x60, 0x75, 0x72, 0x7B, 0x7C, 0x51, 0x56, 0x5F, 0x58, 0x4D, 0x4A, 0x43, 0x44] ++
  [0x19, 0x1E, 0x17, 0x10, 0x05, 0x02, 0x0B, 0x0C, 0x21, 0x26, 0x2F, 0x28, 0x3D, 0x3A, 0x33, 0x34] ++
  [0x4E, 0x49, 0x40, 0x47, 0x52, 0x55, 0x5C, 0x5B, 0x76, 0x71, 0x78, 0x7F, 0x6A, 0x6D, 0x64, 0x63] ++
  [0x3E, 0x39, 0x30, 0x37, 0x22, 0x25, 0x2C, 0x2B, 0x06, 0x01, 0x08, 0x0F, 0x1A, 0x1D, 0x14, 0x13] ++
  [0xAE, 0xA9, 0xA0, 0xA7, 0xB2, 0xB5, 0xBC, 0xBB, 0x96, 0x91, 0x98, 0x9F, 0x8A, 0x8D, 0x84, 0x83] ++
  [0xDE, 0xD9, 0xD0, 0xD7, 0xC2, 0xC5, 0xCC, 0xCB, 0xE6, 0xE1, 0xE8, 0xEF, 0xFA, 0xFD, 0xF4, 0xF3]

/-- The parser invariant (spec/10_state.md R40): WAIT_START has `PS_POS = 0`, and COLLECTING has stored at least the start marker
and at most 63 bytes. -/
abbrev ParserInv (s : State) : Prop :=
  (s.psState = .waitStart → s.psPos.toNat = 0) ∧
    (s.psState = .collecting → 1 ≤ s.psPos.toNat ∧ s.psPos.toNat ≤ 63 ∧ s.psBuf[0] = Config.startMarker)

/-- The invariant of the machine: the parser invariant (R40) and the canonical form of the flash contents (log 6). -/
abbrev MachineInv (s : State) : Prop := ParserInv s ∧ Memory.wf s.flash = true

/-- The bytes the FIFO holds, oldest first: the slots `(RB_TAIL + k) mod 256` for `0 ≤ k < RB_COUNT` (R41). -/
def ringContents (s : State) : List Byte :=
  (List.range s.rbCount).map fun k => s.slot (s.rbTail + BitVec.ofNat 8 k)

/-- The operations of a list performed one after the other (R62). -/
def runAll : List Instr → State → Host.Outcome State Fault Refusal
  | [], s => .next s
  | i :: is, s =>
    match exec i s with
    | .next t => runAll is t
    | .fault r => .fault r
    | .refused r => .refused r

/-- The outputs of the operations of a list, in order (R35). -/
def outputs : List Instr → State → List Response
  | [], _ => []
  | i :: is, s =>
    match exec i s with
    | .next t => t.out :: outputs is t
    | .fault _ => []
    | .refused _ => []

/-- The byte an operation takes from the ring, read off its outputs: `DOUT` of RB_POP and PS_POLL (R123, R147). -/
def takenByte (i : Instr) (r : Response) : List Byte :=
  match i with
  | .rbPop => r.dout.toList
  | .psPoll => r.dout.toList
  | .crcInit => []
  | .crcUpdate _ => []
  | .crcRead => []
  | .crcCompute _ => []
  | .rbPush _ => []
  | .psFeed _ => []
  | .bvCheck _ _ _ => []
  | .bvCheckImage => []

/-- The byte an operation puts into the ring: a push that finds the ring not full (R122, R125). -/
def acceptedByte (i : Instr) (s : State) : List Byte :=
  match i with
  | .rbPush d => if s.rbFull then [] else [d]
  | .crcInit => []
  | .crcUpdate _ => []
  | .crcRead => []
  | .crcCompute _ => []
  | .rbPop => []
  | .psFeed _ => []
  | .psPoll => []
  | .bvCheck _ _ _ => []
  | .bvCheckImage => []

/-- The bytes the operations of a list take from the ring, in order. -/
def takenBytes : List Instr → State → List Byte
  | [], _ => []
  | i :: is, s =>
    match exec i s with
    | .next t => takenByte i t.out ++ takenBytes is t
    | .fault _ => []
    | .refused _ => []

/-- The bytes the operations of a list put into the ring, in order. -/
def acceptedBytes : List Instr → State → List Byte
  | [], _ => []
  | i :: is, s =>
    match exec i s with
    | .next t => acceptedByte i s ++ acceptedBytes is t
    | .fault _ => []
    | .refused _ => []

/-- `m` is a merge of the producer's sequence (of operations, or of sub-steps) and the consumer's: a total order of both,
consistent with each (R62). -/
inductive Merge {α : Type} : List α → List α → List α → Prop where
  /-- Nothing left of either. -/
  | nil : Merge [] [] []
  /-- The producer's next goes first. -/
  | producer {p : α} {ps cs m : List α} : Merge ps cs m → Merge (p :: ps) cs (p :: m)
  /-- The consumer's next goes first. -/
  | consumer {c : α} {ps cs m : List α} : Merge ps cs m → Merge ps (c :: cs) (c :: m)

/-- The results of the pops among some operations, read off their outputs in order: `some b`, or `none` (R123). -/
def popResults (rs : List Response) : List (Option Byte) := rs.filterMap fun r => r.valid.map fun _ => r.dout

/-- The requests pending on an agent's port, oldest first (R21). -/
def pending (a : Agent) (s : State) : List Request :=
  match a with
  | .producer => s.producer
  | .consumer => s.consumer

/-- The other agent (R12). -/
def otherAgent (a : Agent) : Agent :=
  match a with
  | .producer => .consumer
  | .consumer => .producer

/-- The agent whose request goes first when both ports are loaded: the one `order` names, else the free value (R63, log 2). -/
def firstAgent (s : State) : Agent := s.order.headD (Config.servedFirst s.draws)

/-- `r` is the request that the next step serves, with no reset requested: the oldest of agent `a`, who is alone in having one
pending or goes first (R62, R63). -/
def ServesNext (a : Agent) (r : Request) (s : State) : Prop :=
  (pending a s).head? = some r ∧ (pending (otherAgent a) s = [] ∨ firstAgent s = a)

/-- The frame starts of a byte stream (R148): the first start marker, and after a start `k` the first marker at or after
`k + 64`. -/
inductive FrameStart (x : List Byte) : Nat → Prop where
  /-- `s_1` is the least index with a start marker. -/
  | first {k : Nat} : x[k]? = some Config.startMarker → (∀ j < k, x[j]? ≠ some Config.startMarker) → FrameStart x k
  /-- `s_{k+1}` is the least index at or after `s_k + 64` with a start marker. -/
  | later {k m : Nat} : FrameStart x k → k + 64 ≤ m → x[m]? = some Config.startMarker →
      (∀ j, k + 64 ≤ j → j < m → x[j]? ≠ some Config.startMarker) → FrameStart x m

/-- What two states must share for no output to tell them apart: the accumulator, the bytes the FIFO holds (not where they lie),
the parser's state and the bytes stored of the frame being collected, the configuration and the flash. Slots that hold no byte of
the queue and bytes of the scratch frame not yet stored may differ (R23, R29, R37, R38). -/
def SameVisible (s t : State) : Prop :=
  s.crcAcc = t.crcAcc ∧ ringContents s = ringContents t ∧ s.psState = t.psState ∧
    (s.psState = .collecting → s.psPos = t.psPos ∧
      ∀ (i : Nat) (h : i < 64), i < s.psPos.toNat → s.psBuf[i] = t.psBuf[i]) ∧
    s.cfg = t.cfg ∧ ∀ a, s.flashByte a = t.flashByte a

end Sys2Proof.Machine
end

