-- ==== Sys2Proof/Certificates/Slice0/Obligations.lean ====
section
/-! DEFINITION. The statements for the provers. Each docstring names the rule of spec/ it formalises. Where a clause rests on a
choice of the model, the docstring names the log entry (notes/assumptions/). -/

open Sys2Proof
open Sys2Proof.Machine

/-! ## Encoding -/

/-- Decoding what the encoder gives for an operation, as its own agent's request, gives that operation, with every operand
(30_encoding.md R70 to R72). -/
def Obligations.DecodeOfEncodeIsTheOperation : Prop :=
  ∀ i : Instr, decode i.owner (encode i) = .ok i

/-- A request that decodes has the request word of the operation it decodes to, comes from the operation's agent, and gives it its
side operands: each word has one meaning (30_encoding.md R71, R72). -/
def Obligations.DecodedRequestHasTheOperationsWord : Prop :=
  ∀ (a : Agent) (r : Request) (i : Instr), decode a r = .ok i →
    r.req = i.word ∧ a = i.owner ∧ (∀ seq, i = .crcCompute seq → r.seq = seq) ∧
      ∀ sp rv force, i = .bvCheck sp rv force → r.spIn = sp ∧ r.rvIn = rv ∧ r.forceIn = force

/-- Which requests are refused, and with which reason: the first that applies of ReservedOp, ReservedData, WrongAgent; 246 values
of `OP` are reserved (30_encoding.md R73; the order: 60_exceptions.md R194). -/
def Obligations.RefusalReasonIsTheFirstThatApplies : Prop :=
  (∀ (a : Agent) (r : Request),
    (decode a r = .error .reservedOp ↔
      r.op ∉ [0x01#8, 0x02#8, 0x03#8, 0x04#8, 0x10#8, 0x11#8, 0x20#8, 0x21#8, 0x30#8, 0x31#8]) ∧
    (decode a r = .error .reservedData ↔
      r.op ∈ [0x01#8, 0x03#8, 0x04#8, 0x11#8, 0x21#8, 0x30#8, 0x31#8] ∧ r.data ≠ 0x00#8) ∧
    (decode a r = .error .wrongAgent ↔
      (r.op = 0x10#8 ∧ a = .consumer) ∨
        (a = .producer ∧ (r.op ∈ [0x02#8, 0x20#8] ∨
          (r.op ∈ [0x01#8, 0x03#8, 0x04#8, 0x11#8, 0x21#8, 0x30#8, 0x31#8] ∧ r.data = 0x00#8))))) ∧
  ((List.range 256).filter fun n =>
    decodeWord (requestOf (BitVec.ofNat 8 n) 0x00) == .error .reservedOp).length = 246

/-- Words written out from the encoding table decode as it says (30_encoding.md R71; 95_test_vectors.md section 7). -/
def Obligations.SampleWordsDecode : Prop :=
  decodeTableWord 16 0b0000001000110001 = some (.crcUpdate 0x31) ∧
  decodeTableWord 16 0b0000000100000000 = some .crcInit ∧
  decodeTableWord 16 0b0001000011111111 = some (.rbPush 0xFF) ∧
  decodeTableWord 16 0b0010000010110010 = some (.psFeed 0xB2) ∧
  decodeTableWord 16 0b0011000100000000 = some .bvCheckImage ∧
  decodeTableWord 16 0b0000000100000101 = none ∧
  decodeTableWord 16 0b0000000000000000 = none

/-! ## The step -/

/-- With no reset requested and one agent's requests pending, a step is the first of them, decoded, taken from its port and run
(10_state.md R21, 20_memory.md R62). -/
def Obligations.StepRunsTheDecodedRequest : Prop :=
  ∀ (s : State) (r : Request) (rest : List Request) (i : Instr), s.resetIn = false →
    (s.producer = [] → s.consumer = r :: rest → decode .consumer r = .ok i →
      step s = exec i { s with consumer := rest }) ∧
    (s.consumer = [] → s.producer = r :: rest → decode .producer r = .ok i →
      step s = exec i { s with producer := rest })

/-- With requests of both agents pending, a step runs the first request of the agent that `order` names; where `order` is empty,
that of the agent that the free value names. Only the request that is run need decode, and the other one stays pending
(20_memory.md R62, R63; the fields order and draws: log 2). -/
def Obligations.ContestedStepRunsOneOfTheTwoRequests : Prop :=
  ∀ (s : State) (p c : Request) (ps cs : List Request), s.resetIn = false → s.producer = p :: ps → s.consumer = c :: cs →
    (∀ i rest, decode .producer p = .ok i → s.order = .producer :: rest →
      step s = exec i { s with producer := ps, order := rest }) ∧
    (∀ j rest, decode .consumer c = .ok j → s.order = .consumer :: rest →
      step s = exec j { s with consumer := cs, order := rest }) ∧
    (s.order = [] →
      (∀ i, decode .producer p = .ok i → Config.servedFirst s.draws = .producer →
        step s = exec i { s with producer := ps, draws := s.draws + 1 }) ∧
      (∀ j, decode .consumer c = .ok j → Config.servedFirst s.draws = .consumer →
        step s = exec j { s with consumer := cs, draws := s.draws + 1 }) ∧
      (∀ i j, decode .producer p = .ok i → decode .consumer c = .ok j →
        step s = exec i { s with producer := ps, draws := s.draws + 1 } ∨
        step s = exec j { s with consumer := cs, draws := s.draws + 1 }))

/-- A request that does not decode is refused by the step that serves it, with its own reason, be it the only request pending or
one of two that the order of service, or the free value, puts first (60_exceptions.md R191; the fields order and draws: log 2). -/
def Obligations.StepRefusesWhatDoesNotDecode : Prop :=
  ∀ (s : State) (r : Request) (a : Agent), s.resetIn = false → ServesNext a r s →
    (decode a r = .error .reservedOp → step s = .refused .reservedOp) ∧
    (decode a r = .error .reservedData → step s = .refused .reservedData) ∧
    (decode a r = .error .wrongAgent → step s = .refused .wrongAgent)

/-- With nothing pending a step holds every field but the outputs, which are not driven: a partial frame waits as long as no byte
is fed (42_frame_parser.md R146; that such a step exists: log 18). -/
def Obligations.StepWithoutRequestHoldsTheState : Prop :=
  ∀ s : State, s.resetIn = false → s.producer = [] → s.consumer = [] →
    step s = .next { s with out := ⟨none, none, none, none⟩ }

/-- A requested reset gives every field its reset value in one step; after it no agent has issued an operation, and flash,
configuration and order of service are as they were (70_reset_and_hazards.md R210, R211; what stays: log 11). -/
def Obligations.ResetStepGivesTheResetValues : Prop :=
  ∀ s : State, s.resetIn = true → s.producer = [] →
    ∃ t, step s = .next t ∧ t.crcAcc = 0x00 ∧ t.rbHead = 0 ∧ t.rbTail = 0 ∧ t.rbEmpty = true ∧
      t.psState = .waitStart ∧ t.psPos = 0 ∧ t.resetIn = false ∧ t.out = ⟨none, none, none, none⟩ ∧
      t.flash = s.flash ∧ t.cfg = s.cfg ∧ t.producer = [] ∧ t.consumer = [] ∧ t.order = s.order

/-- A producer's request pending before reset completes refuses the run (70_reset_and_hazards.md R213, D21). That this is the reason
reported even where the request does not decode is the model's choice (log 12). -/
def Obligations.ProducerBeforeResetIsRefused : Prop :=
  ∀ s : State, s.resetIn = true → s.producer ≠ [] → step s = .refused .producerBeforeReset

/-- The reset values the spec gives, and that the FIFO is empty after reset (10_state.md R39). -/
def Obligations.ResetStateHoldsTheGivenValues : Prop :=
  State.reset.crcAcc = 0x00 ∧ State.reset.rbHead = 0 ∧ State.reset.rbTail = 0 ∧
    State.reset.psState = .waitStart ∧ State.reset.psPos = 0 ∧ State.reset.rbEmpty = true

/-- A block is configured only with an aligned `APP_BASE` and the override disabled; the configuration is then what was asked for,
and everything else is as after reset. In a configured block `FORCE_IN` has no effect (20_memory.md R59, 43_boot_validator.md
R173, 60_exceptions.md R191; the form of the check: log 9). -/
def Obligations.ConfigurationIsCheckedAndKept : Prop :=
  (∀ p : BuildParams,
    (p.appBase.toNat % 4 ≠ 0 → State.configure p = .refused .misalignedDescriptor) ∧
    (p.appBase.toNat % 4 = 0 → p.forceBlEnabled = true → State.configure p = .refused .forceEnabled) ∧
    (p.appBase.toNat % 4 = 0 → p.forceBlEnabled = false →
      ∃ t, State.configure p = .next t ∧ t = { State.reset with cfg := t.cfg } ∧ appBase t.cfg = p.appBase ∧
        t.cfg.ramMask = p.ramMask ∧ t.cfg.ramMatch = p.ramMatch ∧ t.cfg.flashLo = p.flashLo ∧
        t.cfg.flashHi = p.flashHi)) ∧
  (∀ (sp rv : Word) (force : Bool) (s : State), exec (.bvCheck sp rv force) s = exec (.bvCheck sp rv false) s) ∧
  ∀ q : OpenParams, (appBase q).toNat % 4 = 0

/-- A request word presented to the machine is what its next step runs, on the state as it was with no reset requested (the
model's own interface: log 1, log 16). -/
def Obligations.PresentedWordIsRunByTheNextStep : Prop :=
  ∀ (s : State) (w : Nat) (i : Instr), decodeTableWord 16 w = some i →
    step (s.withFetchWord 16 w) = exec i { s with resetIn := false }

/-! ## The CRC generator -/

/-- CRC_INIT (40_crc8.md R104). -/
def Obligations.CrcInitClearsTheAccumulator : Prop :=
  (∀ s : State, exec .crcInit s = .next { s with crcAcc := 0x00, out := ⟨none, none, none, none⟩ }) ∧
  decode .consumer (requestOf 0x01 0x00) = .ok .crcInit ∧
  decode .producer (requestOf 0x01 0x00) = .error .wrongAgent ∧
  State.reset.crcAcc = 0x00 ∧
  ∀ (a : Agent) (d : Byte), d ≠ 0x00 → decode a (requestOf 0x01 d) = .error .reservedData

/-- CRC_UPDATE d (40_crc8.md R105), with its corner cases. -/
def Obligations.CrcUpdateFeedsOneByte : Prop :=
  (∀ (d : Byte) (s : State),
    exec (.crcUpdate d) s = .next { s with crcAcc := crcStep s.crcAcc d, out := ⟨none, none, none, none⟩ } ∧
    decode .consumer (requestOf 0x02 d) = .ok (.crcUpdate d) ∧
    decode .producer (requestOf 0x02 d) = .error .wrongAgent) ∧
  (∀ d : Byte, crcStep d d = 0x00) ∧ crcStep 0x00 0x00 = 0x00 ∧ crcStep 0x00 0x01 = 0x07

/-- CRC_READ (40_crc8.md R106). -/
def Obligations.CrcReadGivesTheAccumulator : Prop :=
  (∀ s : State, exec .crcRead s = .next { s with out := ⟨some true, some s.crcAcc, none, none⟩ }) ∧
  decode .consumer (requestOf 0x03 0x00) = .ok .crcRead ∧
  decode .producer (requestOf 0x03 0x00) = .error .wrongAgent ∧
  (∀ s : State, ∃ t, runAll [.crcInit, .crcRead] s = .next t ∧ t.out.dout = some 0x00) ∧
  ∃ t, exec .crcRead State.reset = .next t ∧ t.out.dout = some 0x00

/-- CRC_COMPUTE s (40_crc8.md R107): the result does not depend on the accumulator before. That the side operands of BV_CHECK are
ignored in its request is the model's choice (log 14). -/
def Obligations.CrcComputeGivesTheCrcOfTheList : Prop :=
  (∀ (seq : List Byte) (s : State),
    exec (.crcCompute seq) s =
      .next { s with crcAcc := crc8 seq, out := ⟨some true, some (crc8 seq), none, none⟩ }) ∧
  (∀ (seq : List Byte) (sp rv : Word) (force : Bool),
    decode .consumer ⟨0x0400, seq, sp, rv, force⟩ = .ok (.crcCompute seq) ∧
    decode .producer ⟨0x0400, seq, sp, rv, force⟩ = .error .wrongAgent) ∧
  crc8 [] = 0x00 ∧ crc8 [0x31, 0x32, 0x33, 0x34, 0x35, 0x36, 0x37, 0x38, 0x39] = 0xF4

/-- CRC8 is the fold of the byte step from 0x00, and the byte step is eight shifts, each with the polynomial XORed in when the top
bit was set; the byte step is a look-up in the table `T` (40_crc8.md R101, R102; 95_test_vectors.md section 2). -/
def Obligations.CrcIsTheFoldOfEightShifts : Prop :=
  let shift := fun a : Byte => if a.msb then (a <<< 1) ^^^ 0x07 else a <<< 1
  (∀ acc b : Byte, crcStep acc b = shift (shift (shift (shift (shift (shift (shift (shift (acc ^^^ b))))))))) ∧
  crc8 [] = 0x00 ∧
  (∀ (s : List Byte) (b : Byte), crc8 (s ++ [b]) = crcStep (crc8 s) b) ∧
  (∀ acc b : Byte, crcStep acc b = crcStep 0x00 (acc ^^^ b)) ∧
  ∀ acc b : Byte, byteTable[(acc ^^^ b).toNat]? = some (crcStep acc b)

/-- CRC8 is the remainder of the message times x^8 under division by x^8+x^2+x+1 over GF(2), the most significant bit of each byte
first (40_crc8.md R100). -/
def Obligations.CrcIsThePolynomialRemainder : Prop :=
  open Polynomial in
  let bytePoly := fun b : Byte => ∑ k ∈ Finset.range 8, if b.getLsbD k then (X : (ZMod 2)[X]) ^ k else 0
  let message := fun s : List Byte => s.foldl (fun (m : (ZMod 2)[X]) b => m * X ^ 8 + bytePoly b) 0
  ∀ s : List Byte, (message s * X ^ 8) %ₘ (X ^ 8 + X ^ 2 + X + 1) = bytePoly (crc8 s)

/-- The residue law, and the equivalent test for a CRC-valid frame (40_crc8.md R109, 30_encoding.md R78). -/
def Obligations.ResidueOfAListWithItsCrcIsZero : Prop :=
  (∀ s : List Byte, crc8 (s ++ [crc8 s]) = 0x00 ∧ crcStep (crc8 s) (crc8 s) = 0x00) ∧
  ∀ f : Frame, f[63] = crc8 (f.toList.take 63) ↔ crc8 f.toList = 0x00

/-- The leading-zero law (40_crc8.md R110). -/
def Obligations.LeadingZerosLeaveTheCrc : Prop :=
  (∀ (k : Nat) (s : List Byte), crc8 (List.replicate k 0x00 ++ s) = crc8 s) ∧
  (∀ k : Nat, crc8 (List.replicate k 0x00) = 0x00) ∧ crc8 [0xB2] = 0x17 ∧ crc8 [0xB2, 0x00] = 0x65

/-- The linearity law, and what follows for corrupted frames: an error pattern goes undetected exactly when its own CRC is 0x00,
and a corruption of one byte never does (40_crc8.md R111). -/
def Obligations.CrcIsLinearAndDetectsEveryOneByteError : Prop :=
  (∀ a b : Byte, crcStep 0x00 (a ^^^ b) = crcStep 0x00 a ^^^ crcStep 0x00 b) ∧
  (∀ a : Byte, crcStep 0x00 a = 0x00 ↔ a = 0x00) ∧ Function.Bijective (crcStep 0x00) ∧
  (∀ s t : List Byte, s.length = t.length → crc8 (List.zipWith (· ^^^ ·) s t) = crc8 s ^^^ crc8 t) ∧
  (∀ f e : Frame, crcValid f = true →
    (crcValid (Vector.ofFn fun i => f[i] ^^^ e[i]) = true ↔ crc8 e.toList = 0x00)) ∧
  ∀ (f : Frame) (i : Nat) (h : i < 64) (e : Byte), crcValid f = true → e ≠ 0x00 →
    crcValid (f.set i (f[i] ^^^ e)) = false

/-- CRC_INIT, CRC_UPDATE of every byte in order and CRC_READ end in the very state, outputs included, that CRC_COMPUTE ends in,
with CRC8 of the list in `CRC_ACC` and `DOUT` (40_crc8.md R108). -/
def Obligations.StreamedCrcIsTheComputedCrc : Prop :=
  ∀ (bs : List Byte) (s : State),
    runAll (.crcInit :: (bs.map Instr.crcUpdate ++ [.crcRead])) s = runAll [.crcCompute bs] s ∧
    ∃ t, runAll [.crcCompute bs] s = .next t ∧ t.crcAcc = crc8 bs ∧ t.out.dout = some (crc8 bs)

/-- What the CRC generator's operations leave unchanged: everything but `CRC_ACC` and the outputs; CRC_READ leaves `CRC_ACC` too
(10_state.md R20; 40_crc8.md R104 to R107). -/
def Obligations.CrcOperationsFrame : Prop :=
  ∀ (i : Instr) (s t : State), i.blockUnit = .crcGenerator → exec i s = .next t →
    t.rbMem = s.rbMem ∧ t.rbHead = s.rbHead ∧ t.rbTail = s.rbTail ∧ t.psState = s.psState ∧ t.psPos = s.psPos ∧
      t.psBuf = s.psBuf ∧ (∀ a, t.flashByte a = s.flashByte a) ∧ t.cfg = s.cfg ∧ t.producer = s.producer ∧
      t.consumer = s.consumer ∧ t.order = s.order ∧ t.resetIn = s.resetIn ∧ t.draws = s.draws ∧
      (i = .crcRead → t.crcAcc = s.crcAcc)

/-! ## The ring FIFO -/

/-- RB_EMPTY, RB_FULL and RB_COUNT as the spec defines them, and that RB_COUNT is the number of bytes held, at most 255
(10_state.md R32, R33, R34). -/
def Obligations.RingPredicatesCountTheBytesHeld : Prop :=
  ∀ s : State,
    (s.rbEmpty = true ↔ s.rbHead = s.rbTail) ∧
    (s.rbFull = true ↔ (s.rbHead.toNat + 1) % 256 = s.rbTail.toNat) ∧
    s.rbCount = (s.rbHead.toNat + 256 - s.rbTail.toNat) % 256 ∧ s.rbCount = (ringContents s).length ∧
    s.rbCount ≤ 255 ∧ (s.rbEmpty = true ↔ s.rbCount = 0) ∧ (s.rbFull = true ↔ s.rbCount = 255)

/-- RB_PUSH d: dropped without a trace on a full buffer, else stored at `RB_HEAD`, which advances modulo 256; a push by the
consumer is refused (41_ring_fifo.md R122; the index rule R121). -/
def Obligations.RbPushStoresOrDrops : Prop :=
  ∀ (d : Byte) (s : State),
    ((s.rbHead.toNat + 1) % 256 = s.rbTail.toNat →
      exec (.rbPush d) s = .next { s with out := ⟨none, none, none, none⟩ }) ∧
    ((s.rbHead.toNat + 1) % 256 ≠ s.rbTail.toNat →
      ∃ t, exec (.rbPush d) s = .next t ∧ t.rbHead.toNat = (s.rbHead.toNat + 1) % 256 ∧ t.slot s.rbHead = d ∧
        (∀ j, j ≠ s.rbHead → t.slot j = s.slot j) ∧
        t = { s with rbMem := t.rbMem, rbHead := t.rbHead, out := ⟨none, none, none, none⟩ }) ∧
    decode .producer (requestOf 0x10 d) = .ok (.rbPush d) ∧
    decode .consumer (requestOf 0x10 d) = .error .wrongAgent

/-- RB_POP: `VALID = 0` and no `DOUT` on an empty buffer, with no state changed; else the byte at `RB_TAIL`, which advances modulo
256 (41_ring_fifo.md R123; the index rule R121; that `DOUT` has no value then: 92_eei_decisions.md D24, log 3). -/
def Obligations.RbPopGivesTheOldestByte : Prop :=
  (∀ s : State,
    (s.rbHead = s.rbTail → exec .rbPop s = .next { s with out := ⟨some false, none, none, none⟩ }) ∧
    (s.rbHead ≠ s.rbTail →
      ∃ t, exec .rbPop s = .next t ∧ t.rbTail.toNat = (s.rbTail.toNat + 1) % 256 ∧
        t = { s with rbTail := t.rbTail, out := ⟨some true, some (s.slot s.rbTail), none, none⟩ })) ∧
  decode .consumer (requestOf 0x11 0x00) = .ok .rbPop ∧
  decode .producer (requestOf 0x11 0x00) = .error .wrongAgent

/-- The ring is a queue of at most 255 bytes: a push appends its byte unless 255 are held, a pop gives and removes the oldest
(41_ring_fifo.md R122, R123, R125, R126; 10_state.md R41). -/
def Obligations.RingIsABoundedQueue : Prop :=
  ∀ (s : State) (d : Byte),
    (∃ t, exec (.rbPush d) s = .next t ∧
      ringContents t = if (ringContents s).length = 255 then ringContents s else ringContents s ++ [d]) ∧
    ∃ u, exec .rbPop s = .next u ∧ u.out.dout = (ringContents s).head? ∧
      u.out.valid = some (!(ringContents s).isEmpty) ∧ ringContents u = (ringContents s).tail

/-- FIFO order over any sequence of operations: the bytes taken, followed by those still held, are those held before, followed by
the accepted pushes, in push order (41_ring_fifo.md R124). -/
def Obligations.TakenBytesAreTheAcceptedBytesInOrder : Prop :=
  ∀ (is : List Instr) (s : State),
    ∃ t, runAll is s = .next t ∧ takenBytes is s ++ ringContents t = ringContents s ++ acceptedBytes is s

/-- Overflow and underflow change no state (41_ring_fifo.md R125, R126). -/
def Obligations.OverflowAndUnderflowChangeNothing : Prop :=
  (∀ (s : State) (d : Byte), s.rbCount = 255 →
    ∃ t, exec (.rbPush d) s = .next t ∧ t.rbMem = s.rbMem ∧ t.rbHead = s.rbHead ∧ t.rbTail = s.rbTail ∧
      ringContents t = ringContents s ∧ t = { s with out := ⟨none, none, none, none⟩ }) ∧
  ∀ s : State, s.rbEmpty = true →
    ∃ t, exec .rbPop s = .next t ∧ t = { s with out := t.out } ∧ t.out.valid = some false

/-- Capacity: from empty, with no pops, the first 255 pushes are accepted and every later one is dropped (41_ring_fifo.md R127;
90_conflicts.md C3). -/
def Obligations.EmptyRingAcceptsTheFirst255Pushes : Prop :=
  (∀ (ds : List Byte) (s : State), s.rbEmpty = true →
    ∃ t, runAll (ds.map Instr.rbPush) s = .next t ∧ ringContents t = ds.take 255) ∧
  ∀ s : State, (ringContents s).length ≤ 255

/-- The two orders of a push and a pop differ only at the boundaries: full, the byte is dropped or accepted; empty, it is returned or
not; else both give the same outputs and the same final state (20_memory.md R63). -/
def Obligations.PushAndPopOrdersDifferOnlyAtTheBoundaries : Prop :=
  ∀ (s : State) (d : Byte),
    ∃ t u, runAll [.rbPush d, .rbPop] s = .next t ∧ runAll [.rbPop, .rbPush d] s = .next u ∧
      (s.rbFull = true → ringContents t = (ringContents s).tail ∧ ringContents u = (ringContents s).tail ++ [d]) ∧
      (s.rbEmpty = true →
        takenBytes [.rbPush d, .rbPop] s = [d] ∧ takenBytes [.rbPop, .rbPush d] s = [] ∧
          ringContents t = [] ∧ ringContents u = [d]) ∧
      (s.rbFull = false → s.rbEmpty = false →
        { t with out := s.out } = { u with out := s.out } ∧
          takenBytes [.rbPush d, .rbPop] s = takenBytes [.rbPop, .rbPush d] s)

/-- A pop between the two sub-steps of an accepted push acts as that pop before the push, and a push between the two sub-steps of a
successful pop acts as that push before the pop; and a push and a pop both split, in whatever order their tests, slot accesses and
index advances fall, give the state and the answer of one of the two atomic orders (20_memory.md R57). -/
def Obligations.SubStepInterleavingsAreAtomicOrders : Prop :=
  (∀ (s : State) (d : Byte) (m : List SubStep), Merge (pushSubSteps d) popSubSteps m →
    ((runSubSteps m s).state = (s.ringPush d).ringPop.2 ∧ (runSubSteps m s).answers = [(s.ringPush d).ringPop.1]) ∨
    ((runSubSteps m s).state = s.ringPop.2.ringPush d ∧ (runSubSteps m s).answers = [s.ringPop.1])) ∧
  (∀ (s : State) (d : Byte), s.rbFull = false →
    (s.pushWrite d).ringPop.1 = s.ringPop.1 ∧ (s.pushWrite d).ringPop.2.pushAdvance = s.ringPop.2.ringPush d) ∧
  ∀ (s : State) (d : Byte), s.rbEmpty = false →
    (s.ringPush d).ringPop = (some (s.slot s.rbTail), (s.ringPush d).popAdvance)

/-- Any number of pushes and pops, all split into their sub-steps and interleaved in any way, give the state and the answers of some
merge of the same operations performed atomically (20_memory.md R57; the outputs held in the state apart: log 3). -/
def Obligations.EverySubStepInterleavingIsAMergeOfAtomicOperations : Prop :=
  ∀ (ds : List Byte) (n : Nat) (m : List SubStep) (s : State),
    Merge (ds.flatMap pushSubSteps) (List.replicate n popSubSteps).flatten m →
    ∃ is t, Merge (ds.map Instr.rbPush) (List.replicate n .rbPop) is ∧ runAll is s = .next t ∧
      (runSubSteps m s).state = { t with out := s.out } ∧ (runSubSteps m s).answers = popResults (outputs is s)

/-- What the ring's operations leave unchanged: RB_PUSH everything but the slot at `RB_HEAD` and `RB_HEAD`, RB_POP everything but
`RB_TAIL` (10_state.md R20, R26). -/
def Obligations.RingOperationsFrame : Prop :=
  ∀ (i : Instr) (s t : State), i.blockUnit = .ringFifo → exec i s = .next t →
    t.crcAcc = s.crcAcc ∧ t.psState = s.psState ∧ t.psPos = s.psPos ∧ t.psBuf = s.psBuf ∧
      (∀ a, t.flashByte a = s.flashByte a) ∧ t.cfg = s.cfg ∧ t.producer = s.producer ∧ t.consumer = s.consumer ∧
      t.order = s.order ∧ t.resetIn = s.resetIn ∧ t.draws = s.draws ∧
      (∀ d, i = .rbPush d → t.rbTail = s.rbTail ∧ (∀ j, j ≠ s.rbHead → t.slot j = s.slot j)) ∧
      (i = .rbPop → t.rbHead = s.rbHead ∧ t.rbMem = s.rbMem)

/-! ## The parser -/

/-- PS_FEED d in WAIT_START (42_frame_parser.md R141). That the other bytes of `PS_BUF` hold between frames is the model's choice (log
23). -/
def Obligations.PsFeedWaitsForTheStartMarker : Prop :=
  ∀ (d : Byte) (s : State), s.psState = .waitStart →
    decode .consumer (requestOf 0x20 d) = .ok (.psFeed d) ∧ decode .producer (requestOf 0x20 d) = .error .wrongAgent ∧
    (d = 0xB2 → exec (.psFeed d) s =
      .next { s with
        psBuf := s.psBuf.set 0 d
        psPos := 1
        psState := .collecting
        out := ⟨none, none, some none, none⟩ }) ∧
    (d ≠ 0xB2 → exec (.psFeed d) s = .next { s with out := ⟨none, none, some none, none⟩ })

/-- PS_FEED d in COLLECTING with `PS_POS` at most 62 (42_frame_parser.md R142). -/
def Obligations.PsFeedStoresAByteOfTheFrame : Prop :=
  ∀ (d : Byte) (s : State), s.psState = .collecting → s.psPos.toNat ≤ 62 →
    ∃ t, exec (.psFeed d) s = .next t ∧ t.psPos.toNat = s.psPos.toNat + 1 ∧
      t.psBuf = s.psBuf.set s.psPos.toNat d s.psPos.isLt ∧
      t = { s with psBuf := t.psBuf, psPos := t.psPos, out := ⟨none, none, some none, none⟩ }

/-- PS_FEED d in COLLECTING with `PS_POS = 63` (42_frame_parser.md R143): the frame is yielded exactly when byte 63 is the CRC of
bytes 0 to 62, and the parser returns to WAIT_START whatever the CRC says. That the frame's bytes stay in `PS_BUF` then is the model's
choice (log 23). -/
def Obligations.PsFeedCompletesTheFrame : Prop :=
  ∀ (d : Byte) (s : State), s.psState = .collecting → s.psPos = 63 →
    exec (.psFeed d) s =
      .next { s with
        psBuf := s.psBuf.set 63 d
        psState := .waitStart
        psPos := 0
        out := ⟨none, none,
          some (if d = crc8 (s.psBuf.toList.take 63) then some (s.psBuf.set 63 d) else none), none⟩ }

/-- The value of a byte fed in COLLECTING never changes the control path: it is stored at `PS_POS`, 0xB2 included, and the frame
ends by the count of 64 alone (42_frame_parser.md R145). That the bytes stay in `PS_BUF` after the 64th is the model's choice (log
23). -/
def Obligations.ByteValueNeverMovesACollectingParser : Prop :=
  ∀ (d e : Byte) (s : State), s.psState = .collecting →
    ∃ t u, exec (.psFeed d) s = .next t ∧ exec (.psFeed e) s = .next u ∧ t.psState = u.psState ∧ t.psPos = u.psPos ∧
      t.psBuf = s.psBuf.set s.psPos.toNat d s.psPos.isLt ∧ u.psBuf = s.psBuf.set s.psPos.toNat e s.psPos.isLt ∧
      (t.psState = .waitStart ↔ s.psPos.toNat + 1 = 64)

/-- PS_POLL is RB_POP and then PS_FEED of the byte it gave, in one step; on an empty FIFO nothing changes. A push between the two
operations issued separately changes no outcome (42_frame_parser.md R147; `PS_BUF` between frames: log 23). -/
def Obligations.PsPollIsPopThenFeed : Prop :=
  (∀ s : State, s.rbEmpty = true →
    exec .psPoll s = .next { s with out := ⟨some false, none, some none, none⟩ }) ∧
  (∀ s : State, s.rbEmpty = false →
    ∃ t u, exec .rbPop s = .next t ∧ exec (.psFeed (s.slot s.rbTail)) t = .next u ∧
      exec .psPoll s =
        .next { u with out := ⟨some true, some (s.slot s.rbTail), u.out.frameOut, none⟩ }) ∧
  (∀ (s : State) (d : Byte), s.rbEmpty = false →
    ∃ t u, runAll [.rbPush d, .psPoll] s = .next t ∧
      runAll [.rbPop, .rbPush d, .psFeed (s.slot s.rbTail)] s = .next u ∧
      (s.rbFull = false → { t with out := s.out } = { u with out := s.out }) ∧
      t.psState = u.psState ∧ t.psPos = u.psPos ∧ t.psBuf = u.psBuf ∧ t.out.frameOut = u.out.frameOut) ∧
  decode .consumer (requestOf 0x21 0x00) = .ok .psPoll ∧
  decode .producer (requestOf 0x21 0x00) = .error .wrongAgent

/-- Only PS_FEED and PS_POLL yield a frame, and under the parser invariant every frame yielded opens with 0xB2 and is CRC-valid
(10_state.md R30; 30_encoding.md R77, R78). That it is then what `PS_BUF` holds is the model's choice (log 23). -/
def Obligations.YieldedFramesAreMarkedAndCrcValid : Prop :=
  ∀ (i : Instr) (s t : State) (f : Frame), ParserInv s → exec i s = .next t → t.out.frameOut = some (some f) →
    frameAddr f = 0xB2 ∧ frameCrc f = crc8 (f.toList.take 63) ∧ f = t.psBuf ∧ t.psState = .waitStart ∧
      ((∃ d, i = .psFeed d) ∨ i = .psPoll)

/-- The yield property over a stream: fed any byte stream from WAIT_START, the parser yields exactly the complete CRC-valid windows
at the frame starts, each at its last byte, and nothing else (42_frame_parser.md R148). -/
def Obligations.ParserYieldsExactlyTheValidWindows : Prop :=
  ∀ (x : List Byte) (s : State) (n : Nat) (f : Frame), s.psState = .waitStart →
    ((∃ r, (outputs (x.map Instr.psFeed) s)[n]? = some r ∧ r.frameOut = some (some f)) ↔
      ∃ k, FrameStart x k ∧ n = k + 63 ∧ (x.drop k).take 64 = f.toList ∧ f[63] = crc8 (f.toList.take 63))

/-- What the parser's operations leave unchanged: `CRC_ACC` always (the parser never uses it), every byte of `PS_BUF` but the one
stored, the ring for PS_FEED, the ring but for `RB_TAIL` for PS_POLL (10_state.md R20; 42_frame_parser.md R140). That the
bytes of `PS_BUF` hold between frames is the model's choice (log 23). -/
def Obligations.ParserOperationsFrame : Prop :=
  ∀ (i : Instr) (s t : State), i.blockUnit = .parser → exec i s = .next t →
    t.crcAcc = s.crcAcc ∧ t.rbMem = s.rbMem ∧ t.rbHead = s.rbHead ∧ (∀ a, t.flashByte a = s.flashByte a) ∧
      t.cfg = s.cfg ∧ t.producer = s.producer ∧ t.consumer = s.consumer ∧ t.order = s.order ∧
      t.resetIn = s.resetIn ∧ t.draws = s.draws ∧ (∀ d, i = .psFeed d → t.rbTail = s.rbTail) ∧
      (s.psState = .waitStart → ∀ (j : Nat) (h : j < 64), j ≠ 0 → t.psBuf[j] = s.psBuf[j]) ∧
      (s.psState = .collecting → ∀ (j : Nat) (h : j < 64), j ≠ s.psPos.toNat → t.psBuf[j] = s.psBuf[j])

/-! ## The validator -/

/-- BV_CHECK (43_boot_validator.md R174, R172): `BOOT_OK` is the mask compare of `sp` and the inclusive range check of `rv`, both on
unsigned words; nothing else changes and `force` has no effect. That `SEQ` is ignored in its request is the model's choice
(log 14). -/
def Obligations.BvCheckDecidesOnTheGivenWords : Prop :=
  (∀ (sp rv : Word) (force : Bool) (s : State),
    exec (.bvCheck sp rv force) s =
      .next { s with
        out := ⟨none, none, none,
          some (decide (sp &&& s.cfg.ramMask = s.cfg.ramMatch ∧ s.cfg.flashLo.toNat ≤ rv.toNat ∧
            rv.toNat ≤ s.cfg.flashHi.toNat))⟩ }) ∧
  ∀ (seq : List Byte) (sp rv : Word) (force : Bool),
    decode .consumer ⟨0x3000, seq, sp, rv, force⟩ = .ok (.bvCheck sp rv force) ∧
    decode .producer ⟨0x3000, seq, sp, rv, force⟩ = .error .wrongAgent

/-- The stack-pointer check, and that it accepts some word exactly when `RAM_MATCH` has no bit outside `RAM_MASK`
(43_boot_validator.md R171). -/
def Obligations.SpCheckAcceptsOnlyIfMatchLiesInMask : Prop :=
  ∀ p : OpenParams,
    (∀ sp : Word, spOk p sp = true ↔ sp &&& p.ramMask = p.ramMatch) ∧
    (p.ramMatch &&& ~~~p.ramMask ≠ 0 → ∀ sp : Word, spOk p sp = false) ∧
    (p.ramMatch &&& ~~~p.ramMask = 0 → ∃ sp : Word, spOk p sp = true)

/-- BV_CHECK_IMAGE decides as BV_CHECK does on the two little-endian words at `APP_BASE` and `APP_BASE + 4`, with no force, both
words read from one flash state (log 22); past the top of the address space the bytes are free values (log 7)
(43_boot_validator.md R175; 30_encoding.md R81). -/
def Obligations.BvCheckImageDecidesOnTheFlashWords : Prop :=
  (∀ s : State,
    exec .bvCheckImage s =
      exec (.bvCheck (s.memRead4 (appBase s.cfg).toNat) (s.memRead4 ((appBase s.cfg).toNat + 4)) false) s ∧
    ∃ t, exec .bvCheckImage s = .next t ∧ t = { s with out := t.out }) ∧
  decode .consumer (requestOf 0x31 0x00) = .ok .bvCheckImage ∧
  decode .producer (requestOf 0x31 0x00) = .error .wrongAgent

/-- A word read from flash is little-endian (20_memory.md R53, the spec's decision D15). -/
def Obligations.FlashWordsAreLittleEndian : Prop :=
  ∀ (s : State) (a : Nat),
    (s.memRead4 a).toNat = (s.flashByte a).toNat + 2 ^ 8 * (s.flashByte (a + 1)).toNat +
      2 ^ 16 * (s.flashByte (a + 2)).toNat + 2 ^ 24 * (s.flashByte (a + 3)).toNat

/-- The validator's operations change nothing but the outputs: it holds no state (10_state.md R31; 43_boot_validator.md R170). -/
def Obligations.ValidatorOperationsFrame : Prop :=
  ∀ (i : Instr) (s t : State), i.blockUnit = .validator → exec i s = .next t →
    t.crcAcc = s.crcAcc ∧ t.rbMem = s.rbMem ∧ t.rbHead = s.rbHead ∧ t.rbTail = s.rbTail ∧ t.psState = s.psState ∧
      t.psPos = s.psPos ∧ t.psBuf = s.psBuf ∧ (∀ a, t.flashByte a = s.flashByte a) ∧ t.cfg = s.cfg ∧
      t.producer = s.producer ∧ t.consumer = s.consumer ∧ t.order = s.order ∧ t.resetIn = s.resetIn ∧
      t.draws = s.draws

/-! ## The whole machine -/

/-- Every operation completes in every state: the block raises no exception (60_exceptions.md R190, R195). -/
def Obligations.EveryOperationCompletes : Prop :=
  ∀ (i : Instr) (s : State), ∃ t, exec i s = .next t

/-- A step never faults, and is refused only where the request it serves does not decode, or for a producer's request before reset
completes (60_exceptions.md R190, R191; 70_reset_and_hazards.md R213). -/
def Obligations.StepStopsOnlyForNamedRefusals : Prop :=
  ∀ s : State, (∀ r, step s ≠ .fault r) ∧
    ∀ r, step s = .refused r →
      (r = .producerBeforeReset ∧ s.resetIn = true ∧ s.producer ≠ []) ∨
      (s.resetIn = false ∧ ∃ a q, ServesNext a q s ∧
        ((r = .reservedOp ∧ decode a q = .error .reservedOp) ∨ (r = .reservedData ∧ decode a q = .error .reservedData) ∨
          (r = .wrongAgent ∧ decode a q = .error .wrongAgent)))

/-- Each field is written only by the operations the state table names, and no operation writes both ring indices
(10_state.md R20, R26). -/
def Obligations.OnlyTheNamedOperationsWriteAField : Prop :=
  ∀ (i : Instr) (s t : State), exec i s = .next t →
    (t.crcAcc ≠ s.crcAcc → i = .crcInit ∨ (∃ d, i = .crcUpdate d) ∨ ∃ seq, i = .crcCompute seq) ∧
    (t.rbMem ≠ s.rbMem ∨ t.rbHead ≠ s.rbHead → (∃ d, i = .rbPush d) ∧ i.owner = .producer ∧ t.rbTail = s.rbTail) ∧
    (t.rbTail ≠ s.rbTail → (i = .rbPop ∨ i = .psPoll) ∧ i.owner = .consumer ∧ t.rbHead = s.rbHead) ∧
    (t.psState ≠ s.psState ∨ t.psPos ≠ s.psPos ∨ t.psBuf ≠ s.psBuf → (∃ d, i = .psFeed d) ∨ i = .psPoll) ∧
    t.flash = s.flash ∧ t.cfg = s.cfg ∧ t.producer = s.producer ∧ t.consumer = s.consumer ∧ t.order = s.order ∧
    t.resetIn = s.resetIn ∧ t.draws = s.draws

/-- Each output is driven by the operations the request format names and by no other; `DOUT` has a value exactly when `VALID` is 1
(30_encoding.md R70; 41_ring_fifo.md R123; 92_eei_decisions.md D24; the form of the outputs: log 3). -/
def Obligations.OutputsAreDrivenByTheNamedOperations : Prop :=
  ∀ (i : Instr) (s t : State), exec i s = .next t →
    (t.out.valid.isSome = true ↔ i = .rbPop ∨ i = .psPoll ∨ i = .crcRead ∨ ∃ seq, i = .crcCompute seq) ∧
    (t.out.dout.isSome = true ↔ t.out.valid = some true) ∧
    (t.out.frameOut.isSome = true ↔ (∃ d, i = .psFeed d) ∨ i = .psPoll) ∧
    (t.out.bootOk.isSome = true ↔ (∃ sp rv force, i = .bvCheck sp rv force) ∨ i = .bvCheckImage)

/-- The error kinds: within one operation at most one row's condition holds, and each has the effect its row gives
(60_exceptions.md R192, R194; `PS_BUF` between frames: log 23). -/
def Obligations.ErrorKindsExcludeEachOtherAndHaveTheirEffects : Prop :=
  ∀ (i : Instr) (s t : State), exec i s = .next t →
    (∀ j k : ErrorKind, kindMet j i s = true → kindMet k i s = true → j = k) ∧
    (kindMet .sync i s = true →
      t.psState = .waitStart ∧ t.psPos = s.psPos ∧ t.psBuf = s.psBuf ∧ t.out.frameOut = some none) ∧
    (kindMet .crc i s = true → t.psState = .waitStart ∧ t.psPos = 0 ∧ t.out.frameOut = some none) ∧
    (kindMet .overflow i s = true → t = { s with out := ⟨none, none, none, none⟩ }) ∧
    (kindMet .empty i s = true → t = { s with out := t.out } ∧ t.out.valid = some false) ∧
    (kindMet .image i s = true ↔ t.out.bootOk = some false)

/-- No step changes the flash or the configuration: flash is read-only for the block, and the configuration is fixed when it is
built (20_memory.md R51; 10_state.md R36). -/
def Obligations.StepNeverChangesFlashOrConfiguration : Prop :=
  ∀ s t : State, step s = .next t → t.flash = s.flash ∧ t.cfg = s.cfg ∧ ∀ a, t.flashByte a = s.flashByte a

/-- Every step keeps the invariant: the parser's state, position and first byte fit together (10_state.md R40), and the flash contents
keep their canonical form (log 6). -/
def Obligations.StepKeepsTheMachineInvariant : Prop :=
  ∀ s t : State, MachineInv s → step s = .next t → MachineInv t

/-- The invariant holds after reset (10_state.md R39, R40). -/
def Obligations.ResetMeetsTheMachineInvariant : Prop :=
  MachineInv State.reset

/-- What no operation can show: two states that share the accumulator, the bytes held, the parser's progress, the configuration and the
flash give the same outputs under every sequence of operations. Ring slots that hold nothing, the place of the queue in the ring,
and scratch bytes not yet stored are never observable (10_state.md R23, R29, R37, R38, R41). -/
def Obligations.UnwrittenStorageIsNeverObservable : Prop :=
  ∀ (is : List Instr) (s t : State), SameVisible s t → outputs is s = outputs is t

/-- Every merge of the two agents' sequences is admitted: for each there is an order of service under which the machine's steps are
exactly the operations in that merge, with the same final state (20_memory.md R62, R63; the field order: log 2). -/
def Obligations.EveryMergeOfTheAgentsIsAdmitted : Prop :=
  ∀ (ps cs m : List Instr) (s : State), (∀ p ∈ ps, p.owner = .producer) → (∀ c ∈ cs, c.owner = .consumer) →
    Merge ps cs m → s.producer = [] → s.consumer = [] → s.order = [] → s.resetIn = false →
    ∃ order, core.run m.length { s with producer := ps.map encode, consumer := cs.map encode, order := order } =
      runAll m s

/-- Only merges are admitted: whatever the order of service and the free values, serving both agents' requests is performing some
merge of their sequences, each agent's own order kept (20_memory.md R62; the fields order and draws: log 2). -/
def Obligations.EveryRunIsAMergeOfTheAgents : Prop :=
  ∀ (ps cs : List Instr) (s : State), (∀ p ∈ ps, p.owner = .producer) → (∀ c ∈ cs, c.owner = .consumer) →
    s.producer = [] → s.consumer = [] → s.resetIn = false →
    ∃ m t u, Merge ps cs m ∧ runAll m s = .next u ∧
      core.run (ps.length + cs.length) { s with producer := ps.map encode, consumer := cs.map encode } = .next t ∧
      t = { u with order := t.order, draws := t.draws }
end

