-- ==== Sys2Proof/Laws/Decode.lean ====
section
/-! SUPPORT. The two bytes of a request word, and the encoder's: the one place where a word is taken apart. -/

namespace Sys2Proof

/-- Two bytes side by side, as a number. -/
theorem append_bytes_toNat (a b : Byte) : (a ++ b).toNat = a.toNat * 256 + b.toNat := by
  rw [BitVec.toNat_append, ← Nat.shiftLeft_add_eq_or_of_lt b.isLt, Nat.shiftLeft_eq]

/-- `OP` of a word built from its two bytes. -/
@[simp] theorem extract_op (a b : Byte) : BitVec.extractLsb' 8 8 (a ++ b) = a := by
  apply BitVec.eq_of_toNat_eq
  rw [BitVec.extractLsb'_toNat, append_bytes_toNat, Nat.shiftRight_eq_div_pow]
  have := a.isLt
  have := b.isLt
  omega

/-- `DATA` of a word built from its two bytes. -/
@[simp] theorem extract_data (a b : Byte) : BitVec.extractLsb' 0 8 (a ++ b) = b := by
  apply BitVec.eq_of_toNat_eq
  rw [BitVec.extractLsb'_toNat, append_bytes_toNat, Nat.shiftRight_eq_div_pow]
  have := a.isLt
  have := b.isLt
  omega

/-- A word is its two bytes. -/
theorem op_append_data (r : Request) : r.op ++ r.data = r.req := by
  apply BitVec.eq_of_toNat_eq
  rw [append_bytes_toNat, Request.op, Request.data, BitVec.extractLsb'_toNat, BitVec.extractLsb'_toNat,
    Nat.shiftRight_eq_div_pow, Nat.shiftRight_eq_div_pow]
  have := r.req.isLt
  omega

/-- The encoder's `OP` is the operation's selector (R71). -/
@[simp] theorem encode_op (i : Instr) : (encode i).op = i.opcode := by
  cases i <;> exact extract_op _ _

/-- The encoder's `DATA` is the operation's byte operand (R71). -/
@[simp] theorem encode_data (i : Instr) : (encode i).data = i.dataByte := by
  cases i <;> exact extract_data _ _

end Sys2Proof
end

