-- ==== Sys2Proof/Laws/Memory.lean ====
section
/-! SUPPORT. The flash contents: every operation keeps the canonical form; reading after writing (log 6). -/

namespace Sys2Proof.Machine

@[simp] theorem Memory.read_nil (a : Nat) : Memory.read [] a = none := rfl

@[simp] theorem Memory.read_cons (k : Nat) (b : Byte) (m : Memory) (a : Nat) :
    Memory.read ((k, b) :: m) a = if k = a then some b else Memory.read m a := rfl

/-- Reading where a byte was just put gives that byte. -/
theorem Memory.read_insert_same (m : Memory) (a : Nat) (b : Byte) : Memory.read (Memory.insert m a b) a = some b := by
  induction m with
  | nil => simp [Memory.insert]
  | cons c m ih =>
    obtain ⟨k, c⟩ := c
    simp only [Memory.insert]
    split
    · simp
    · split
      · simp
      · rename_i h; simp [Ne.symm h, ih]

/-- Putting a byte at one address leaves every other address alone. -/
theorem Memory.read_insert_other (m : Memory) (a a' : Nat) (b : Byte) (h : a' ≠ a) :
    Memory.read (Memory.insert m a b) a' = Memory.read m a' := by
  induction m with
  | nil => simp [Memory.insert, Ne.symm h]
  | cons c m ih =>
    obtain ⟨k, c⟩ := c
    simp only [Memory.insert]
    split
    · simp [Ne.symm h]
    · split
      · rename_i e; subst e; simp [Ne.symm h]
      · simp [ih]

/-- Putting a byte above a bound keeps the addresses rising from above that bound. -/
theorem Memory.risingFrom_insert (m : Memory) (a : Nat) (b : Byte) (lo : Option Nat)
    (ha : a < Config.flashSpace) (hlo : ∀ l, lo = some l → l < a) (h : Memory.risingFrom lo m = true) :
    Memory.risingFrom lo (Memory.insert m a b) = true := by
  induction m generalizing lo with
  | nil => cases lo <;> simp_all [Memory.insert, Memory.risingFrom]
  | cons c m ih =>
    obtain ⟨k, c⟩ := c
    simp only [Memory.risingFrom, Bool.and_eq_true, decide_eq_true_eq] at h
    obtain ⟨⟨h1, h2⟩, h3⟩ := h
    simp only [Memory.insert]
    split
    · rename_i hk
      cases lo <;> simp_all [Memory.risingFrom]
    · split
      · rename_i e; subst e
        simp only [Memory.risingFrom, Bool.and_eq_true, decide_eq_true_eq]
        exact ⟨⟨h1, ha⟩, h3⟩
      · rename_i hlt hne
        simp only [Memory.risingFrom, Bool.and_eq_true, decide_eq_true_eq]
        refine ⟨⟨h1, h2⟩, ih (some k) ?_ h3⟩
        intro l hl
        cases hl
        omega

/-- Programming a byte keeps the canonical form. -/
theorem Memory.write_wf (m : Memory) (a : Nat) (b : Byte) (h : Memory.wf m = true) :
    Memory.wf (Memory.write m a b) = true := by
  unfold Memory.write
  split
  · exact Memory.risingFrom_insert m a b none ‹_› (by simp) h
  · exact h

/-- The empty contents are in canonical form. -/
@[simp] theorem Memory.wf_nil : Memory.wf [] = true := rfl

/-- A byte programmed inside the address space is what the block reads there. -/
theorem flashByte_programFlash_same (s : State) (a : Nat) (b : Byte) (h : a < Config.flashSpace) :
    (s.programFlash a b).flashByte a = b := by
  simp [State.flashByte, State.programFlash, Memory.write, h, Memory.read_insert_same]

/-- Programming one byte leaves what the block reads elsewhere. -/
theorem flashByte_programFlash_other (s : State) (a a' : Nat) (b : Byte) (h : a' ≠ a) :
    (s.programFlash a b).flashByte a' = s.flashByte a' := by
  simp only [State.flashByte, State.programFlash, Memory.write]
  split <;> simp [Memory.read_insert_other _ _ _ _ h]

end Sys2Proof.Machine
end

