-- ==== Sys2Proof/Laws/State.lean ====
section
/-! SUPPORT. One lemma per field per single update of the state, so that no later proof unfolds a record update. -/

namespace Sys2Proof.Machine

variable (s : State)

/-! ### respond -/

@[simp] theorem respond_crcAcc (r : Response) : (s.respond r).crcAcc = s.crcAcc := rfl
@[simp] theorem respond_rbMem (r : Response) : (s.respond r).rbMem = s.rbMem := rfl
@[simp] theorem respond_rbHead (r : Response) : (s.respond r).rbHead = s.rbHead := rfl
@[simp] theorem respond_rbTail (r : Response) : (s.respond r).rbTail = s.rbTail := rfl
@[simp] theorem respond_psState (r : Response) : (s.respond r).psState = s.psState := rfl
@[simp] theorem respond_psPos (r : Response) : (s.respond r).psPos = s.psPos := rfl
@[simp] theorem respond_psBuf (r : Response) : (s.respond r).psBuf = s.psBuf := rfl
@[simp] theorem respond_flash (r : Response) : (s.respond r).flash = s.flash := rfl
@[simp] theorem respond_cfg (r : Response) : (s.respond r).cfg = s.cfg := rfl
@[simp] theorem respond_producer (r : Response) : (s.respond r).producer = s.producer := rfl
@[simp] theorem respond_consumer (r : Response) : (s.respond r).consumer = s.consumer := rfl
@[simp] theorem respond_order (r : Response) : (s.respond r).order = s.order := rfl
@[simp] theorem respond_resetIn (r : Response) : (s.respond r).resetIn = s.resetIn := rfl
@[simp] theorem respond_out (r : Response) : (s.respond r).out = r := rfl
@[simp] theorem respond_draws (r : Response) : (s.respond r).draws = s.draws := rfl

/-! ### setCrc -/

@[simp] theorem setCrc_crcAcc (a : Byte) : (s.setCrc a).crcAcc = a := rfl
@[simp] theorem setCrc_rbMem (a : Byte) : (s.setCrc a).rbMem = s.rbMem := rfl
@[simp] theorem setCrc_rbHead (a : Byte) : (s.setCrc a).rbHead = s.rbHead := rfl
@[simp] theorem setCrc_rbTail (a : Byte) : (s.setCrc a).rbTail = s.rbTail := rfl
@[simp] theorem setCrc_psState (a : Byte) : (s.setCrc a).psState = s.psState := rfl
@[simp] theorem setCrc_psPos (a : Byte) : (s.setCrc a).psPos = s.psPos := rfl
@[simp] theorem setCrc_psBuf (a : Byte) : (s.setCrc a).psBuf = s.psBuf := rfl
@[simp] theorem setCrc_flash (a : Byte) : (s.setCrc a).flash = s.flash := rfl
@[simp] theorem setCrc_cfg (a : Byte) : (s.setCrc a).cfg = s.cfg := rfl
@[simp] theorem setCrc_producer (a : Byte) : (s.setCrc a).producer = s.producer := rfl
@[simp] theorem setCrc_consumer (a : Byte) : (s.setCrc a).consumer = s.consumer := rfl
@[simp] theorem setCrc_order (a : Byte) : (s.setCrc a).order = s.order := rfl
@[simp] theorem setCrc_resetIn (a : Byte) : (s.setCrc a).resetIn = s.resetIn := rfl
@[simp] theorem setCrc_out (a : Byte) : (s.setCrc a).out = s.out := rfl
@[simp] theorem setCrc_draws (a : Byte) : (s.setCrc a).draws = s.draws := rfl

/-! ### pushWrite -/

@[simp] theorem pushWrite_crcAcc (d : Byte) : (s.pushWrite d).crcAcc = s.crcAcc := rfl
@[simp] theorem pushWrite_rbMem (d : Byte) : (s.pushWrite d).rbMem = s.rbMem.set s.rbHead.toNat d s.rbHead.isLt := rfl
@[simp] theorem pushWrite_rbHead (d : Byte) : (s.pushWrite d).rbHead = s.rbHead := rfl
@[simp] theorem pushWrite_rbTail (d : Byte) : (s.pushWrite d).rbTail = s.rbTail := rfl
@[simp] theorem pushWrite_psState (d : Byte) : (s.pushWrite d).psState = s.psState := rfl
@[simp] theorem pushWrite_psPos (d : Byte) : (s.pushWrite d).psPos = s.psPos := rfl
@[simp] theorem pushWrite_psBuf (d : Byte) : (s.pushWrite d).psBuf = s.psBuf := rfl
@[simp] theorem pushWrite_flash (d : Byte) : (s.pushWrite d).flash = s.flash := rfl
@[simp] theorem pushWrite_cfg (d : Byte) : (s.pushWrite d).cfg = s.cfg := rfl
@[simp] theorem pushWrite_producer (d : Byte) : (s.pushWrite d).producer = s.producer := rfl
@[simp] theorem pushWrite_consumer (d : Byte) : (s.pushWrite d).consumer = s.consumer := rfl
@[simp] theorem pushWrite_order (d : Byte) : (s.pushWrite d).order = s.order := rfl
@[simp] theorem pushWrite_resetIn (d : Byte) : (s.pushWrite d).resetIn = s.resetIn := rfl
@[simp] theorem pushWrite_out (d : Byte) : (s.pushWrite d).out = s.out := rfl
@[simp] theorem pushWrite_draws (d : Byte) : (s.pushWrite d).draws = s.draws := rfl

/-! ### pushAdvance -/

@[simp] theorem pushAdvance_crcAcc : (s.pushAdvance).crcAcc = s.crcAcc := rfl
@[simp] theorem pushAdvance_rbMem : (s.pushAdvance).rbMem = s.rbMem := rfl
@[simp] theorem pushAdvance_rbHead : (s.pushAdvance).rbHead = nextIndex s.rbHead := rfl
@[simp] theorem pushAdvance_rbTail : (s.pushAdvance).rbTail = s.rbTail := rfl
@[simp] theorem pushAdvance_psState : (s.pushAdvance).psState = s.psState := rfl
@[simp] theorem pushAdvance_psPos : (s.pushAdvance).psPos = s.psPos := rfl
@[simp] theorem pushAdvance_psBuf : (s.pushAdvance).psBuf = s.psBuf := rfl
@[simp] theorem pushAdvance_flash : (s.pushAdvance).flash = s.flash := rfl
@[simp] theorem pushAdvance_cfg : (s.pushAdvance).cfg = s.cfg := rfl
@[simp] theorem pushAdvance_producer : (s.pushAdvance).producer = s.producer := rfl
@[simp] theorem pushAdvance_consumer : (s.pushAdvance).consumer = s.consumer := rfl
@[simp] theorem pushAdvance_order : (s.pushAdvance).order = s.order := rfl
@[simp] theorem pushAdvance_resetIn : (s.pushAdvance).resetIn = s.resetIn := rfl
@[simp] theorem pushAdvance_out : (s.pushAdvance).out = s.out := rfl
@[simp] theorem pushAdvance_draws : (s.pushAdvance).draws = s.draws := rfl

/-! ### popAdvance -/

@[simp] theorem popAdvance_crcAcc : (s.popAdvance).crcAcc = s.crcAcc := rfl
@[simp] theorem popAdvance_rbMem : (s.popAdvance).rbMem = s.rbMem := rfl
@[simp] theorem popAdvance_rbHead : (s.popAdvance).rbHead = s.rbHead := rfl
@[simp] theorem popAdvance_rbTail : (s.popAdvance).rbTail = nextIndex s.rbTail := rfl
@[simp] theorem popAdvance_psState : (s.popAdvance).psState = s.psState := rfl
@[simp] theorem popAdvance_psPos : (s.popAdvance).psPos = s.psPos := rfl
@[simp] theorem popAdvance_psBuf : (s.popAdvance).psBuf = s.psBuf := rfl
@[simp] theorem popAdvance_flash : (s.popAdvance).flash = s.flash := rfl
@[simp] theorem popAdvance_cfg : (s.popAdvance).cfg = s.cfg := rfl
@[simp] theorem popAdvance_producer : (s.popAdvance).producer = s.producer := rfl
@[simp] theorem popAdvance_consumer : (s.popAdvance).consumer = s.consumer := rfl
@[simp] theorem popAdvance_order : (s.popAdvance).order = s.order := rfl
@[simp] theorem popAdvance_resetIn : (s.popAdvance).resetIn = s.resetIn := rfl
@[simp] theorem popAdvance_out : (s.popAdvance).out = s.out := rfl
@[simp] theorem popAdvance_draws : (s.popAdvance).draws = s.draws := rfl

/-! ### openFrame -/

@[simp] theorem openFrame_crcAcc (d : Byte) : (s.openFrame d).crcAcc = s.crcAcc := rfl
@[simp] theorem openFrame_rbMem (d : Byte) : (s.openFrame d).rbMem = s.rbMem := rfl
@[simp] theorem openFrame_rbHead (d : Byte) : (s.openFrame d).rbHead = s.rbHead := rfl
@[simp] theorem openFrame_rbTail (d : Byte) : (s.openFrame d).rbTail = s.rbTail := rfl
@[simp] theorem openFrame_psState (d : Byte) : (s.openFrame d).psState = .collecting := rfl
@[simp] theorem openFrame_psPos (d : Byte) : (s.openFrame d).psPos = 1 := rfl
@[simp] theorem openFrame_psBuf (d : Byte) : (s.openFrame d).psBuf = s.psBuf.set 0 d := rfl
@[simp] theorem openFrame_flash (d : Byte) : (s.openFrame d).flash = s.flash := rfl
@[simp] theorem openFrame_cfg (d : Byte) : (s.openFrame d).cfg = s.cfg := rfl
@[simp] theorem openFrame_producer (d : Byte) : (s.openFrame d).producer = s.producer := rfl
@[simp] theorem openFrame_consumer (d : Byte) : (s.openFrame d).consumer = s.consumer := rfl
@[simp] theorem openFrame_order (d : Byte) : (s.openFrame d).order = s.order := rfl
@[simp] theorem openFrame_resetIn (d : Byte) : (s.openFrame d).resetIn = s.resetIn := rfl
@[simp] theorem openFrame_out (d : Byte) : (s.openFrame d).out = s.out := rfl
@[simp] theorem openFrame_draws (d : Byte) : (s.openFrame d).draws = s.draws := rfl

/-! ### storeByte -/

@[simp] theorem storeByte_crcAcc (d : Byte) : (s.storeByte d).crcAcc = s.crcAcc := rfl
@[simp] theorem storeByte_rbMem (d : Byte) : (s.storeByte d).rbMem = s.rbMem := rfl
@[simp] theorem storeByte_rbHead (d : Byte) : (s.storeByte d).rbHead = s.rbHead := rfl
@[simp] theorem storeByte_rbTail (d : Byte) : (s.storeByte d).rbTail = s.rbTail := rfl
@[simp] theorem storeByte_psState (d : Byte) : (s.storeByte d).psState = s.psState := rfl
@[simp] theorem storeByte_psPos (d : Byte) : (s.storeByte d).psPos = s.psPos + 1 := rfl
@[simp] theorem storeByte_psBuf (d : Byte) : (s.storeByte d).psBuf = s.psBuf.set s.psPos.toNat d s.psPos.isLt := rfl
@[simp] theorem storeByte_flash (d : Byte) : (s.storeByte d).flash = s.flash := rfl
@[simp] theorem storeByte_cfg (d : Byte) : (s.storeByte d).cfg = s.cfg := rfl
@[simp] theorem storeByte_producer (d : Byte) : (s.storeByte d).producer = s.producer := rfl
@[simp] theorem storeByte_consumer (d : Byte) : (s.storeByte d).consumer = s.consumer := rfl
@[simp] theorem storeByte_order (d : Byte) : (s.storeByte d).order = s.order := rfl
@[simp] theorem storeByte_resetIn (d : Byte) : (s.storeByte d).resetIn = s.resetIn := rfl
@[simp] theorem storeByte_out (d : Byte) : (s.storeByte d).out = s.out := rfl
@[simp] theorem storeByte_draws (d : Byte) : (s.storeByte d).draws = s.draws := rfl

/-! ### closeFrame -/

@[simp] theorem closeFrame_crcAcc (d : Byte) : (s.closeFrame d).crcAcc = s.crcAcc := rfl
@[simp] theorem closeFrame_rbMem (d : Byte) : (s.closeFrame d).rbMem = s.rbMem := rfl
@[simp] theorem closeFrame_rbHead (d : Byte) : (s.closeFrame d).rbHead = s.rbHead := rfl
@[simp] theorem closeFrame_rbTail (d : Byte) : (s.closeFrame d).rbTail = s.rbTail := rfl
@[simp] theorem closeFrame_psState (d : Byte) : (s.closeFrame d).psState = .waitStart := rfl
@[simp] theorem closeFrame_psPos (d : Byte) : (s.closeFrame d).psPos = 0 := rfl
@[simp] theorem closeFrame_psBuf (d : Byte) : (s.closeFrame d).psBuf = s.psBuf.set 63 d := rfl
@[simp] theorem closeFrame_flash (d : Byte) : (s.closeFrame d).flash = s.flash := rfl
@[simp] theorem closeFrame_cfg (d : Byte) : (s.closeFrame d).cfg = s.cfg := rfl
@[simp] theorem closeFrame_producer (d : Byte) : (s.closeFrame d).producer = s.producer := rfl
@[simp] theorem closeFrame_consumer (d : Byte) : (s.closeFrame d).consumer = s.consumer := rfl
@[simp] theorem closeFrame_order (d : Byte) : (s.closeFrame d).order = s.order := rfl
@[simp] theorem closeFrame_resetIn (d : Byte) : (s.closeFrame d).resetIn = s.resetIn := rfl
@[simp] theorem closeFrame_out (d : Byte) : (s.closeFrame d).out = s.out := rfl
@[simp] theorem closeFrame_draws (d : Byte) : (s.closeFrame d).draws = s.draws := rfl

/-! ### blockReset -/

@[simp] theorem blockReset_crcAcc : (s.blockReset).crcAcc = 0x00 := rfl
@[simp] theorem blockReset_rbMem : (s.blockReset).rbMem = ringStorage s.draws := rfl
@[simp] theorem blockReset_rbHead : (s.blockReset).rbHead = 0 := rfl
@[simp] theorem blockReset_rbTail : (s.blockReset).rbTail = 0 := rfl
@[simp] theorem blockReset_psState : (s.blockReset).psState = .waitStart := rfl
@[simp] theorem blockReset_psPos : (s.blockReset).psPos = 0 := rfl
@[simp] theorem blockReset_psBuf : (s.blockReset).psBuf = scratchStorage s.draws := rfl
@[simp] theorem blockReset_flash : (s.blockReset).flash = s.flash := rfl
@[simp] theorem blockReset_cfg : (s.blockReset).cfg = s.cfg := rfl
@[simp] theorem blockReset_producer : (s.blockReset).producer = [] := rfl
@[simp] theorem blockReset_consumer : (s.blockReset).consumer = [] := rfl
@[simp] theorem blockReset_order : (s.blockReset).order = s.order := rfl
@[simp] theorem blockReset_resetIn : (s.blockReset).resetIn = false := rfl
@[simp] theorem blockReset_out : (s.blockReset).out = quiet := rfl
@[simp] theorem blockReset_draws : (s.blockReset).draws = s.draws + 1 := rfl

end Sys2Proof.Machine
end

