-- ==== Sys2Proof/Laws/Ops.lean ====
section
/-! SUPPORT. One lemma per shared operation that says everything it can do; later proofs cite these and do not unfold the
operations. -/

namespace Sys2Proof.Machine

@[simp] theorem crc8_nil : crc8 [] = 0x00 := rfl

/-- The CRC of a longer list continues the CRC of its beginning (R101). -/
theorem crc8_append (s t : List Byte) : crc8 (s ++ t) = t.foldl crcStep (crc8 s) := by
  simp [crc8, List.foldl_append]

/-- The CRC after one more byte (R101). -/
theorem crc8_snoc (s : List Byte) (b : Byte) : crc8 (s ++ [b]) = crcStep (crc8 s) b := by
  simp [crc8_append]

/-- The byte step depends on the accumulator and the byte only through their XOR (R102). -/
theorem crcStep_eq (acc b : Byte) : crcStep acc b = crcStep 0 (acc ^^^ b) := by
  simp [crcStep]

/-- A push drops its byte on a full ring, and else writes the slot at the head and advances the head (R122). -/
theorem ringPush_cases (d : Byte) (s : State) :
    (s.rbFull = true ∧ s.ringPush d = s) ∨ (s.rbFull = false ∧ s.ringPush d = (s.pushWrite d).pushAdvance) := by
  unfold State.ringPush
  cases h : s.rbFull <;> simp

/-- A pop gives nothing on an empty ring, and else the byte at the tail, which advances (R123). -/
theorem ringPop_cases (s : State) :
    (s.rbEmpty = true ∧ s.ringPop = (none, s)) ∨
      (s.rbEmpty = false ∧ s.ringPop = (some (s.slot s.rbTail), s.popAdvance)) := by
  unfold State.ringPop
  cases h : s.rbEmpty <;> simp

/-- The parser's byte step: discard, open a frame, store a byte, or close the frame (R141, R142, R143). -/
theorem feed_cases (d : Byte) (s : State) :
    (s.psState = .waitStart ∧ d ≠ Config.startMarker ∧ s.feed d = (none, s)) ∨
      (s.psState = .waitStart ∧ d = Config.startMarker ∧ s.feed d = (none, s.openFrame d)) ∨
      (s.psState = .collecting ∧ s.psPos ≠ 63 ∧ s.feed d = (none, s.storeByte d)) ∨
      (s.psState = .collecting ∧ s.psPos = 63 ∧ s.feed d = (yielded (s.closeFrame d).psBuf, s.closeFrame d)) := by
  cases h : s.psState
  · by_cases hd : d = Config.startMarker <;> simp [State.feed, h, hd]
  · by_cases hp : s.psPos = 63
    · exact .inr (.inr (.inr ⟨rfl, hp, by simp only [State.feed, h, if_pos hp]⟩))
    · exact .inr (.inr (.inl ⟨rfl, hp, by simp only [State.feed, h, if_neg hp]⟩))

/-- What is yielded is CRC-valid (R143). -/
theorem yielded_eq_some {f g : Frame} : yielded f = some g ↔ crcValid f = true ∧ f = g := by
  unfold yielded
  split <;> simp_all

/-- The state left by a push differs only in the ring's storage and head (R26). -/
theorem ringPush_frame (d : Byte) (s : State) :
    s.ringPush d = { s with rbMem := (s.ringPush d).rbMem, rbHead := (s.ringPush d).rbHead } := by
  rcases ringPush_cases d s with ⟨_, h⟩ | ⟨_, h⟩
  · rw [h]
  · rw [h]; rfl

/-- The state left by a pop differs only in the ring's tail (R26). -/
theorem ringPop_frame (s : State) : s.ringPop.2 = { s with rbTail := s.ringPop.2.rbTail } := by
  rcases ringPop_cases s with ⟨_, h⟩ | ⟨_, h⟩
  · rw [h]
  · rw [h]; rfl

/-- The state left by a byte step differs only in the parser's three fields (R140). -/
theorem feed_frame (d : Byte) (s : State) :
    (s.feed d).2 = { s with psState := (s.feed d).2.psState, psPos := (s.feed d).2.psPos, psBuf := (s.feed d).2.psBuf } := by
  rcases feed_cases d s with ⟨_, _, h⟩ | ⟨_, _, h⟩ | ⟨_, _, h⟩ | ⟨_, _, h⟩
  · rw [h]
  · rw [h]; rfl
  · rw [h]; rfl
  · rw [h]; rfl

/-- Arbitration answers the head of `order`, else the free value, and changes only `order` or `draws` (R63). -/
theorem arbitrate_cases (s : State) :
    (∃ a rest, s.order = a :: rest ∧ s.arbitrate = (a, { s with order := rest })) ∨
      (s.order = [] ∧ s.arbitrate = (Config.servedFirst s.draws, { s with draws := s.draws + 1 })) := by
  cases h : s.order <;> simp [State.arbitrate, h]

/-- What is served: nothing when no request is pending, else the first request of one of the two ports, which alone leaves its
port; with both ports loaded, the port that arbitration names (R62). -/
theorem serve_cases (s : State) :
    (s.producer = [] ∧ s.consumer = [] ∧ s.serve = none) ∨
      (∃ p ps, s.producer = p :: ps ∧ s.consumer = [] ∧ s.serve = some (.producer, p, { s with producer := ps })) ∨
      (∃ c cs, s.producer = [] ∧ s.consumer = c :: cs ∧ s.serve = some (.consumer, c, { s with consumer := cs })) ∨
      (∃ p ps c cs, s.producer = p :: ps ∧ s.consumer = c :: cs ∧
        ((s.arbitrate.1 = .producer ∧ s.serve = some (.producer, p, { s.arbitrate.2 with producer := ps })) ∨
          (s.arbitrate.1 = .consumer ∧ s.serve = some (.consumer, c, { s.arbitrate.2 with consumer := cs })))) := by
  cases hp : s.producer with
  | nil => cases hc : s.consumer <;> simp [State.serve, hp, hc]
  | cons p ps =>
    cases hc : s.consumer with
    | nil => simp [State.serve, hp, hc]
    | cons c cs =>
      refine .inr (.inr (.inr ⟨p, ps, c, cs, rfl, rfl, ?_⟩))
      rcases ha : s.arbitrate with ⟨a, t⟩
      cases a <;> simp [State.serve, hp, hc, ha]

end Sys2Proof.Machine
end

