-- ==== Sys2Proof/Laws/PerInstr.lean ====
section
/-! SUPPORT. A law of every operation, one lemma per constructor: its request word is one the row of spec/opcode_table.json
matches, its selector names the unit that performs it, and its `DATA` is its byte operand (spec/30_encoding.md R71). -/

namespace Sys2Proof.Laws.TableRow

/-- The operation's request word matches its row of the opcode table, and `OP[7:4]` selects its unit (R71). -/
def Statement (i : Instr) : Prop :=
  (encode i).req &&& i.tableMask = i.tableMatch ∧ (encode i).op.extractLsb' 4 4 = i.blockUnit.selector ∧
    (encode i).data = i.dataByte

theorem crcInit : Statement .crcInit := by unfold Statement; decide

theorem crcUpdate (d : Byte) : Statement (.crcUpdate d) := by
  unfold Statement; revert d; decide

theorem crcRead : Statement .crcRead := by unfold Statement; decide

theorem crcCompute (seq : List Byte) : Statement (.crcCompute seq) := by
  unfold Statement
  simp only [encode, Request.op, Request.data, Instr.word, Instr.opcode, Instr.dataByte, Instr.tableMask,
    Instr.tableMatch, Instr.blockUnit, BlockUnit.selector]
  decide

theorem rbPush (d : Byte) : Statement (.rbPush d) := by
  unfold Statement; revert d; decide

theorem rbPop : Statement .rbPop := by unfold Statement; decide

theorem psFeed (d : Byte) : Statement (.psFeed d) := by
  unfold Statement; revert d; decide

theorem psPoll : Statement .psPoll := by unfold Statement; decide

theorem bvCheck (sp rv : Word) (force : Bool) : Statement (.bvCheck sp rv force) := by
  unfold Statement
  simp only [encode, Request.op, Request.data, Instr.word, Instr.opcode, Instr.dataByte, Instr.tableMask,
    Instr.tableMatch, Instr.blockUnit, BlockUnit.selector]
  decide

theorem bvCheckImage : Statement .bvCheckImage := by unfold Statement; decide

end Sys2Proof.Laws.TableRow
end

