-- ==== Sys2Proof/Laws/Step.lean ====
section
/-! SUPPORT. What a step can do, once and for all, and the host's run in terms of the step. -/

namespace Sys2Proof.Machine

/-- A step that goes on is a reset, an idle step, or an operation on the state that serving its request leaves. -/
theorem step_cases {s t : State} (h : step s = .next t) :
    (s.resetIn = true ∧ s.producer = [] ∧ t = s.blockReset) ∨
      (s.resetIn = false ∧ s.serve = none ∧ t = s.idle) ∨
      ∃ a r u i, s.resetIn = false ∧ s.serve = some (a, r, u) ∧ decode a r = .ok i ∧ exec i u = .next t := by
  unfold step at h
  split at h
  · rename_i hr
    cases hp : s.producer <;> simp [State.resetStep, hp] at h
    exact .inl ⟨hr, rfl, h.symm⟩
  · rename_i hr
    have hr : s.resetIn = false := by simpa using hr
    split at h
    · rename_i hs
      cases h
      exact .inr (.inl ⟨hr, hs, rfl⟩)
    · rename_i a r u hs
      split at h
      · rename_i i hd
        exact .inr (.inr ⟨a, r, u, i, hr, hs, hd, h⟩)
      · cases h

/-- Serving a request changes only the ports, the order and the count of free values. -/
theorem serve_frame {s u : State} {a : Agent} {r : Request} (h : s.serve = some (a, r, u)) :
    u = { s with producer := u.producer, consumer := u.consumer, order := u.order, draws := u.draws } := by
  have harb : s.arbitrate.2 = { s with order := s.arbitrate.2.order, draws := s.arbitrate.2.draws } := by
    rcases arbitrate_cases s with ⟨a, rest, _, e⟩ | ⟨_, e⟩ <;> rw [e]
  rcases serve_cases s with ⟨_, _, e⟩ | ⟨p, ps, _, _, e⟩ | ⟨c, cs, _, _, e⟩ | ⟨p, ps, c, cs, _, _, ⟨_, e⟩ | ⟨_, e⟩⟩ <;>
    rw [e] at h <;> simp only [Option.some.injEq, Prod.mk.injEq, reduceCtorEq] at h <;> obtain ⟨-, -, rfl⟩ := h
  · rfl
  · rfl
  · rw [harb]
  · rw [harb]

/-- The request a step serves is the one claims name: service and ServesNext say the same (R62, R63). -/
theorem servesNext_iff {a : Agent} {r : Request} {s : State} : ServesNext a r s ↔ ∃ u, s.serve = some (a, r, u) := by
  have harb : s.arbitrate.1 = firstAgent s := by
    rcases arbitrate_cases s with ⟨b, rest, h, e⟩ | ⟨h, e⟩ <;> rw [e] <;> simp [firstAgent, h]
  rcases serve_cases s with ⟨hp, hc, e⟩ | ⟨p, ps, hp, hc, e⟩ | ⟨c, cs, hp, hc, e⟩ | ⟨p, ps, c, cs, hp, hc, h⟩
  · cases a <;> simp [ServesNext, pending, hp, hc, e]
  · cases a <;> simp [ServesNext, pending, otherAgent, hp, hc, e]
  · cases a <;> simp [ServesNext, pending, otherAgent, hp, hc, e]
  · rw [harb] at h
    rcases h with ⟨h, e⟩ | ⟨h, e⟩ <;> cases a <;> simp [ServesNext, pending, otherAgent, hp, hc, h, e]

/-- A step with no reset requested that serves a request which does not decode is refused with its reason (R191). -/
theorem step_refused {a : Agent} {r : Request} {s : State} {e : Reject} (hr : s.resetIn = false) (hs : ServesNext a r s)
    (hd : decode a r = .error e) : step s = .refused (refusalOf e) := by
  obtain ⟨u, hu⟩ := servesNext_iff.mp hs
  simp [step, hr, hu, hd]

/-- The host's step is the machine's. -/
theorem core_step (s : State) : core.step s = step s := rfl

/-- No steps. -/
@[simp] theorem core_run_zero (s : State) : core.run 0 s = .next s := rfl

/-- One step and the rest. -/
theorem core_run_succ (k : Nat) (s : State) :
    core.run (k + 1) s =
      match step s with
      | .next t => core.run k t
      | .fault r => .fault r
      | .refused r => .refused r := by
  simp only [Host.Core.run]
  rw [core_step]
  cases step s <;> rfl

end Sys2Proof.Machine
end

