-- ==== Sys2Proof/Laws/SubSteps.lean ====
section
/-! SUPPORT. What the sub-steps of pushes and pops do, and when those of the two sides commute (spec/20_memory.md R57). -/

namespace Sys2Proof.Machine

/-- One more sub-step. -/
theorem runSubSteps_snoc (ks : List SubStep) (k : SubStep) (s : State) :
    runSubSteps (ks ++ [k]) s = k.run (runSubSteps ks s) := by
  simp [runSubSteps]

/-- A push's sub-steps with nothing in between are the push. -/
theorem pushSubSteps_state (d : Byte) (s : State) : (runSubSteps (pushSubSteps d) s).state = s.ringPush d := by
  rcases ringPush_cases d s with ⟨h, e⟩ | ⟨h, e⟩ <;> simp [runSubSteps, pushSubSteps, SubStep.run, h, e]

/-- A pop's sub-steps with nothing in between are the pop, and its answer is the pop's. -/
theorem popSubSteps_result (s : State) :
    (runSubSteps popSubSteps s).state = s.ringPop.2 ∧ (runSubSteps popSubSteps s).answers = [s.ringPop.1] := by
  rcases ringPop_cases s with ⟨h, e⟩ | ⟨h, e⟩ <;> simp [runSubSteps, popSubSteps, SubStep.run, h, e]

end Sys2Proof.Machine
end

