-- ==== Sys2Proof/Machine/Assembly.lean ====
section
/-! DEFINITION. The spec's assembly text, listing and pseudo-operations (spec/30_encoding.md R82, R83). It is notation: no
operation depends on it. Spacing and upper-case hex digits are the model's (DESIGN CHOICE, log 19, safe). -/

namespace Sys2Proof.Machine

/-- The upper-case hex digit of a 4-bit value. -/
def hexDigit (n : BitVec 4) : Char :=
  if n.toNat < 10 then Char.ofNat (48 + n.toNat) else Char.ofNat (55 + n.toNat)

/-- The `k` low hex digits of `n`, the high one first. -/
def hexText : Nat → Nat → List Char
  | 0, _ => []
  | k + 1, n => hexDigit (BitVec.ofNat 4 (n / 16 ^ k)) :: hexText k n

/-- A byte as `0xNN` (R82). -/
def byteText (b : Byte) : List Char := ['0', 'x'] ++ hexText 2 b.toNat

/-- A 32-bit word as `0xNNNNNNNN` (R82). -/
def wordText (w : Word) : List Char := ['0', 'x'] ++ hexText 8 w.toNat

/-- The inside of a byte list, `0xNN, 0xNN, ...` (R82). -/
def bytesText : List Byte → List Char
  | [] => []
  | [b] => byteText b
  | b :: c :: rest => byteText b ++ [',', ' '] ++ bytesText (c :: rest)

/-- The mnemonic as spec/opcode_table.json spells it (R71). -/
def mnemonic : Instr → List Char
  | .crcInit => "CRC_INIT".toList
  | .crcUpdate _ => "CRC_UPDATE".toList
  | .crcRead => "CRC_READ".toList
  | .crcCompute _ => "CRC_COMPUTE".toList
  | .rbPush _ => "RB_PUSH".toList
  | .rbPop => "RB_POP".toList
  | .psFeed _ => "PS_FEED".toList
  | .psPoll => "PS_POLL".toList
  | .bvCheck _ _ _ => "BV_CHECK".toList
  | .bvCheckImage => "BV_CHECK_IMAGE".toList

/-- The operand part of a line, with the blank before it (R82). -/
def operandText : Instr → List Char
  | .crcUpdate d => ' ' :: byteText d
  | .rbPush d => ' ' :: byteText d
  | .psFeed d => ' ' :: byteText d
  | .crcCompute seq => " [".toList ++ bytesText seq ++ "]".toList
  | .bvCheck sp rv force =>
    " sp=".toList ++ wordText sp ++ ", rv=".toList ++ wordText rv ++ ", force=".toList ++ [if force then '1' else '0']
  | .crcInit => []
  | .crcRead => []
  | .rbPop => []
  | .psPoll => []
  | .bvCheckImage => []

/-- The agent's letter (R82). -/
def agentLetter : Agent → Char
  | .producer => 'P'
  | .consumer => 'C'

/-- The text of a line, `<agent>: <MNEMONIC> [operand]` (R82). -/
def lineText (l : Line) : List Char := agentLetter l.agent :: ':' :: ' ' :: (mnemonic l.instr ++ operandText l.instr)

/-- The encoding of a line: its `REQ` word in hex, written `OPDATA` (R82). -/
def lineHex (l : Line) : List Char := hexText 4 l.instr.word.toNat

/-- `P: RB_PUSHS b0, ..., bn` (R83). -/
def rbPushs (bs : List Byte) : List Line := bs.map fun b => ⟨.producer, .rbPush b⟩

/-- `C: PS_FEEDS b0, ..., bn` (R83). -/
def psFeeds (bs : List Byte) : List Line := bs.map fun b => ⟨.consumer, .psFeed b⟩

/-- `C: CRC_UPDATES b0, ..., bn` (R83). -/
def crcUpdates (bs : List Byte) : List Line := bs.map fun b => ⟨.consumer, .crcUpdate b⟩

/-- `<line> xN` (R83). -/
def timesN (n : Nat) (l : Line) : List Line := List.replicate n l

/-- `C: FEED_FRAME f` (R83). -/
def feedFrame (f : Frame) : List Line := psFeeds f.toList

end Sys2Proof.Machine
end

