-- ==== Sys2Proof/Tests/Slice0.lean ====
section
/-! SUPPORT. The model's own tests: vectors of spec/95_test_vectors.md (and words written out from spec/30_encoding.md R71), each
about one operation or one step on a small state; the smoke tests of WellFormed; and for each statement with hypotheses a
witness that meets them. -/

namespace Sys2Proof.Tests

open Sys2Proof.Machine

/-! ## States to test on -/

/-- The example configuration EXC (spec/92_eei_decisions.md D19): for test vectors only, not the hardware's. -/
def exc : OpenParams := ⟨0xFFFE0000, 0x20000000, 0x08000000, 0x080FFFFF, 0x02001000⟩

/-- EXC as build parameters. -/
def excBuild : BuildParams := ⟨0xFFFE0000, 0x20000000, 0x08000000, 0x080FFFFF, 0x08004000, false⟩

/-- A state after reset with storage of zeros and the configuration EXC. -/
def fresh : State :=
  { State.reset with rbMem := Vector.replicate 256 0, psBuf := Vector.replicate 64 0, cfg := exc }

/-- The ring with the given indices, slot `i` holding `m`. -/
def ringAt (head tail : Byte) (i m : Byte) : State :=
  { fresh with rbHead := head, rbTail := tail, rbMem := fresh.rbMem.set i.toNat m i.isLt }

/-- The parser collecting, `pos` bytes stored in `b`. -/
def collecting (pos : BitVec 6) (b : Frame) : State :=
  { fresh with psState := .collecting, psPos := pos, psBuf := b }

/-- A frame of zeros with the given header bytes and last byte. -/
def frameOf (a s c p last : Byte) : Frame :=
  ((((((Vector.replicate 64 0).set 0 a).set 1 s).set 2 c).set 3 p).set 63 last)

/-- `REQ_PING` (95 section 1). -/
def reqPing : Frame := frameOf 0xB2 0 0 0 0x6A

/-- The state an outcome goes on with. -/
def after (o : Host.Outcome State Fault Refusal) : Option State :=
  match o with
  | .next t => some t
  | .fault _ => none
  | .refused _ => none

/-- The outputs an outcome goes on with. -/
def outOf (o : Host.Outcome State Fault Refusal) : Option Response := (after o).map fun t => t.out

/-- Why an outcome is refused. -/
def whyRefused (o : Host.Outcome State Fault Refusal) : Option Refusal :=
  match o with
  | .next _ => none
  | .fault _ => none
  | .refused r => some r

/-! ## WellFormed: an ill-formed term for each check -/

theorem test_push_by_the_consumer_is_ill_formed : (Line.mk .consumer (.rbPush 0x42)).wf = false := by decide

theorem test_pop_by_the_producer_is_ill_formed : (Line.mk .producer .rbPop).wf = false := by decide

theorem test_misaligned_base_is_ill_formed : ({ excBuild with appBase := 0x08004002 } : BuildParams).wf = false := by decide

theorem test_enabled_override_is_ill_formed : ({ excBuild with forceBlEnabled := true } : BuildParams).wf = false := by decide

theorem test_exc_is_well_formed : excBuild.wf = true := by decide

theorem test_configure_keeps_exc : (after (State.configure excBuild)).map (fun t => t.cfg) = some exc := by decide

theorem test_unsorted_memory_is_not_canonical : Memory.wf [(4, 0x00), (4, 0x01)] = false := by decide

theorem test_memory_outside_flash_is_not_canonical : Memory.wf [(2 ^ 32, 0x00)] = false := by decide

theorem test_reset_memory_is_canonical : Memory.wf State.reset.flash = true := by decide

/-! ## Decoding: words from the encoding table (R71) and section 7 of the vectors -/

theorem test_decode_crc_family :
    decodeTableWord 16 0b0000000100000000 = some .crcInit ∧
    decodeTableWord 16 0b0000001000110001 = some (.crcUpdate 0x31) ∧
    decodeTableWord 16 0b0000001100000000 = some .crcRead ∧
    decodeTableWord 16 0b0000010000000000 = some (.crcCompute []) := by decide

theorem test_decode_ring_family :
    decodeTableWord 16 0b0001000011111111 = some (.rbPush 0xFF) ∧
    decodeTableWord 16 0b0001000100000000 = some .rbPop := by decide

theorem test_decode_parser_family :
    decodeTableWord 16 0b0010000010110010 = some (.psFeed 0xB2) ∧
    decodeTableWord 16 0b0010000100000000 = some .psPoll := by decide

theorem test_decode_validator_family :
    decodeTableWord 16 0b0011000000000000 = some (.bvCheck 0 0 false) ∧
    decodeTableWord 16 0b0011000100000000 = some .bvCheckImage := by decide

theorem test_decode_side_operands :
    decode .consumer ⟨0x0400, [0x31, 0x32], 0, 0, false⟩ = .ok (.crcCompute [0x31, 0x32]) ∧
    decode .consumer ⟨0x3000, [], 0x20005000, 0x08004199, true⟩ = .ok (.bvCheck 0x20005000 0x08004199 true) := by decide

/-- E-3, E-4, E-5, E-7, E-8, and the order of the reasons (R194). -/
theorem test_decode_refusals :
    decode .consumer (requestOf 0x01 0x05) = .error .reservedData ∧
    decode .consumer (requestOf 0x00 0x00) = .error .reservedOp ∧
    decode .producer (requestOf 0x32 0x01) = .error .reservedOp ∧
    decode .consumer (requestOf 0x10 0xFF) = .error .wrongAgent ∧
    decode .producer (requestOf 0x11 0x00) = .error .wrongAgent ∧
    decode .producer (requestOf 0x11 0x01) = .error .reservedData := by decide

/-- Every row's word runs as the first operation after reset. -/
theorem test_every_row_runs_first :
    ([0x0100, 0x0231, 0x0300, 0x0400, 0x10FF, 0x1100, 0x20B2, 0x2100, 0x3000, 0x3100].all fun w =>
      (after (step (State.reset.withFetchWord 16 w))).isSome) = true := by decide

theorem test_encode_words :
    (encode (.crcUpdate 0x31)).req = 0x0231 ∧ (encode (.rbPush 0x6A)).req = 0x106A ∧
    (encode (.bvCheck 1 2 true)) = ⟨0x3000, [], 1, 2, true⟩ := by decide

/-! ## The CRC generator (sections 2 and 3) -/

set_option maxRecDepth 40000 in
/-- The byte table T (section 2). -/
theorem test_crc_byte_table : (List.range 256).map (fun n => crcStep 0x00 (BitVec.ofNat 8 n)) = byteTable := by decide

set_option maxRecDepth 40000 in
/-- V-2 to V-13, V-20, V-22. -/
theorem test_crc_short_lists :
    crc8 [] = 0x00 ∧ crc8 [0x00] = 0x00 ∧ crc8 [0x01] = 0x07 ∧ crc8 [0x02] = 0x0E ∧ crc8 [0x80] = 0x89 ∧
    crc8 [0xFF] = 0xF3 ∧ crc8 [0xB2] = 0x17 ∧ crc8 [0xB2, 0x00] = 0x65 ∧ crc8 [0x01, 0x07] = 0x00 ∧
    crc8 [0x31, 0x32, 0x33, 0x34, 0x35, 0x36, 0x37, 0x38, 0x39] = 0xF4 ∧ crc8 [0xFF, 0xFF] = 0x24 ∧
    crc8 [0x40] = 0xC7 := by decide

set_option maxRecDepth 40000 in
/-- V-14, V-15, V-16, V-21. -/
theorem test_crc_frame_bodies :
    crc8 (0xB2 :: List.replicate 62 0x00) = 0x6A ∧
    crc8 ([0xB2, 0x40, 0x00, 0x00, 0xFF, 0xFF, 0xFF] ++ List.replicate 56 0x00) = 0x1A ∧
    crc8 (List.replicate 63 0xB2) = 0xFC ∧ crc8 (0xB2 :: List.replicate 62 0xFF) = 0x06 := by decide

/-- VC-2 and VC-8: the old accumulator does not matter. -/
theorem test_crc_init_and_empty_compute :
    (after (exec .crcInit { fresh with crcAcc := 0x5A })).map (fun t => t.crcAcc) = some 0x00 ∧
    (after (exec (.crcCompute []) { fresh with crcAcc := 0x33 })).map (fun t => t.crcAcc) = some 0x00 := by decide

/-- VC-6: no CRC_INIT. -/
theorem test_crc_update_continues :
    (after (exec (.crcUpdate 0x00) { fresh with crcAcc := 0x5A })).map (fun t => t.crcAcc) = some 0x81 := by decide

/-- VC-5: a read gives the accumulator. -/
theorem test_crc_read :
    outOf (exec .crcRead { fresh with crcAcc := 0x72 }) = some ⟨some true, some 0x72, none, none⟩ := by decide

/-! ## The ring FIFO (section 5) -/

set_option maxRecDepth 4000 in
/-- F-2 and F-4: a push writes the slot at the head, and the head wraps. -/
theorem test_push_wraps_the_head :
    (after (exec (.rbPush 0x15) (ringAt 255 250 0 0))).map (fun t => (t.rbHead, t.rbTail, t.slot 255, t.slot 0)) =
      some (0, 250, 0x15, 0x00) := by decide

set_option maxRecDepth 4000 in
/-- F-3, F-5a: a push on a full ring is dropped. -/
theorem test_push_on_a_full_ring_is_dropped :
    (after (exec (.rbPush 0xEE) (ringAt 255 0 255 0x77))).map (fun t => (t.rbHead, t.rbTail, t.slot 255, t.out)) =
      some (255, 0, 0x77, ⟨none, none, none, none⟩) := by decide

set_option maxRecDepth 4000 in
/-- A pop at slot 255 wraps the tail (R123). -/
theorem test_pop_wraps_the_tail :
    (after (exec .rbPop (ringAt 4 255 255 0x15))).map (fun t => (t.rbHead, t.rbTail, t.out)) =
      some (4, 0, ⟨some true, some 0x15, none, none⟩) := by decide

/-- F-1: a pop on an empty ring. -/
theorem test_pop_on_an_empty_ring :
    (after (exec .rbPop fresh)).map (fun t => (t.rbHead, t.rbTail, t.out)) =
      some (0, 0, ⟨some false, none, none, none⟩) := by decide

/-! ## The parser (section 4) -/

set_option maxRecDepth 4000 in
/-- P-14 and P-15: the marker opens a frame, and a second marker is data. -/
theorem test_marker_opens_and_is_data :
    (after (exec (.psFeed 0xB2) fresh)).map (fun t => (t.psState, t.psPos, t.psBuf[0], t.out.frameOut)) =
      some (.collecting, 1, 0xB2, some none) ∧
    (after (exec (.psFeed 0xB2) (collecting 1 (frameOf 0xB2 0 0 0 0)))).map
      (fun t => (t.psState, t.psPos, t.psBuf[1])) = some (.collecting, 2, 0xB2) := by decide

set_option maxRecDepth 40000 in
/-- P-1, P-2, P-12: the last byte yields a valid frame, a mismatch is silent, and the CRC byte may be the marker. -/
theorem test_last_byte :
    (after (exec (.psFeed 0x6A) (collecting 63 (frameOf 0xB2 0 0 0 0)))).map (fun t => (t.psState, t.psPos, t.out.frameOut)) =
      some (.waitStart, 0, some (some reqPing)) ∧
    (after (exec (.psFeed 0x6B) (collecting 63 (frameOf 0xB2 0 0 0 0)))).map (fun t => (t.psState, t.psPos, t.out.frameOut)) =
      some (.waitStart, 0, some none) ∧
    outOf (exec (.psFeed 0xB2) (collecting 63 (frameOf 0xB2 0 0 0xF5 0))) =
      some ⟨none, none, some (some (frameOf 0xB2 0 0 0xF5 0xB2)), none⟩ :=
  ⟨by decide, by decide, by decide⟩

set_option maxRecDepth 4000 in
/-- The example of R147, and a poll of an empty ring. -/
theorem test_poll :
    (after (exec .psPoll (ringAt 1 0 0 0xB2))).map (fun t => (t.rbTail, t.psState, t.psPos, t.out)) =
      some (1, .collecting, 1, ⟨some true, some 0xB2, some none, none⟩) ∧
    outOf (exec .psPoll fresh) = some ⟨some false, none, some none, none⟩ := by decide

set_option maxRecDepth 4000 in
/-- The fields of a frame (P-1): 59 payload bytes. -/
theorem test_frame_fields :
    frameAddr reqPing = 0xB2 ∧ frameStat reqPing = 0x00 ∧ frameCmd reqPing = 0x00 ∧ frameParam reqPing = 0x00 ∧
    framePayload reqPing = List.replicate 59 0x00 ∧ frameCrc reqPing = 0x6A := by decide

/-- WAIT_START = 0 and COLLECTING = 1 (R27). -/
theorem test_parser_state_bits : ParserState.waitStart.bit = false ∧ ParserState.collecting.bit = true := by decide

/-! ## The validator under EXC (section 6) -/

/-- B-1 to B-11. -/
theorem test_boot_checks :
    bootOk exc 0x20005000 0x08004199 false = true ∧ bootOk exc 0x30005000 0x08004199 false = false ∧
    bootOk exc 0x20020000 0x08004199 false = false ∧ bootOk exc 0x2001FFFC 0x08004199 false = true ∧
    bootOk exc 0x20005000 0x07FFFFFF false = false ∧ bootOk exc 0x20005000 0x08000000 false = true ∧
    bootOk exc 0x20005000 0x080FFFFF false = true ∧ bootOk exc 0x20005000 0x08100000 false = false ∧
    bootOk exc 0xFFFFFFFF 0xFFFFFFFF false = false ∧ bootOk exc 0x20005000 0x08004199 true = true ∧
    bootOk exc 0x00000000 0x00000000 false = false := by decide

/-- Eight bytes of flash at `APP_BASE` of EXC. -/
def image (a b c d e f g h : Byte) : Memory :=
  [(0x08004000, a), (0x08004001, b), (0x08004002, c), (0x08004003, d),
   (0x08004004, e), (0x08004005, f), (0x08004006, g), (0x08004007, h)]

/-- B-12: the words are little-endian. -/
theorem test_image_is_little_endian :
    outOf (exec .bvCheckImage { fresh with flash := image 0x00 0x50 0x00 0x20 0x99 0x41 0x00 0x08 }) =
      some ⟨none, none, none, some true⟩ := by decide

/-- B-13: the bytes in big-endian order are not accepted. -/
theorem test_image_is_not_big_endian :
    outOf (exec .bvCheckImage { fresh with flash := image 0x20 0x00 0x00 0x50 0x08 0x00 0x41 0x99 }) =
      some ⟨none, none, none, some false⟩ := by decide

/-- Programming flash in any order gives the one canonical form. -/
theorem test_flash_writes_are_canonical :
    Memory.write (Memory.write (Memory.write [] 7 0x01) 3 0x02) 7 0x04 = [(3, 0x02), (7, 0x04)] := by decide

/-! ## The step -/

/-- F-7: the consumer's push is refused. -/
theorem test_push_by_the_consumer_is_refused :
    whyRefused (step (fresh.issue .consumer (requestOf 0x10 0x42))) = some .wrongAgent := by decide

/-- A step takes the oldest request of its port and leaves the rest. -/
theorem test_step_serves_in_issue_order :
    (after (step ((fresh.issue .consumer (requestOf 0x02 0x01)).issue .consumer (requestOf 0x03 0x00)))).map
      (fun t => (t.crcAcc, t.consumer)) = some (0x07, [requestOf 0x03 0x00]) := by decide

/-- F-6a and F-6b: both orders of a push and a pop on an empty ring. -/
def bothPending (first : Agent) : State :=
  { fresh with producer := [requestOf 0x10 0x42], consumer := [requestOf 0x11 0x00], order := [first] }

set_option maxRecDepth 4000 in
theorem test_both_orders_are_admitted :
    (after (step (bothPending .producer))).map (fun t => (t.rbHead, t.producer.length, t.consumer.length)) = some (1, 0, 1) ∧
    (after (step (bothPending .consumer))).map (fun t => (t.rbHead, t.out.valid, t.consumer.length)) =
      some (0, some false, 0) := by decide

set_option maxRecDepth 4000 in
/-- Reset returns the parser to WAIT_START (R146, R210), and after it no agent has issued an operation (R211). -/
theorem test_reset_abandons_a_partial_frame :
    (after (step (State.requestReset
      { collecting 30 reqPing with crcAcc := 0x5A, rbHead := 9, consumer := [requestOf 0x11 0x00] }))).map
      (fun t => (t.psState, t.psPos, t.crcAcc, t.rbHead, t.consumer.length)) =
        some (.waitStart, 0, 0x00, 0, 0) := by decide

theorem test_push_before_reset_is_refused :
    whyRefused (step (State.requestReset (fresh.issue .producer (requestOf 0x10 0x42)))) = some .producerBeforeReset := by
  decide

/-! ## Assembly text (R82, R83) -/

theorem test_assembly_of_an_update :
    lineText ⟨.consumer, .crcUpdate 0x31⟩ = "C: CRC_UPDATE 0x31".toList ∧
    lineHex ⟨.consumer, .crcUpdate 0x31⟩ = "0231".toList := by decide

theorem test_assembly_of_a_check :
    lineText ⟨.consumer, .bvCheck 0x20005000 0x08004199 true⟩ =
      "C: BV_CHECK sp=0x20005000, rv=0x08004199, force=1".toList := by decide

theorem test_assembly_of_a_list :
    lineText ⟨.consumer, .crcCompute [0x01, 0xAB]⟩ = "C: CRC_COMPUTE [0x01, 0xAB]".toList ∧
    lineText ⟨.consumer, .crcCompute []⟩ = "C: CRC_COMPUTE []".toList := by decide

/-- The listing of PR-3's request frame: 64 requests, the marker first and the CRC last. -/
theorem test_pseudo_operations_expand :
    (rbPushs [0xB2, 0x6A]).map lineHex = ["10B2".toList, "106A".toList] ∧
    (timesN 3 ⟨.consumer, .psPoll⟩).map lineHex = ["2100".toList, "2100".toList, "2100".toList] ∧
    (feedFrame reqPing).length = 64 := by decide

/-! ## Witnesses: for each statement with hypotheses, states and operands that meet them -/

/-- The one request pending on the consumer's port of a fresh state. -/
def consumerAsks (r : Request) : State := { fresh with consumer := [r] }

/-- The one request pending on the producer's port of a fresh state. -/
def producerAsks (r : Request) : State := { fresh with producer := [r] }

/-- The ring with the indices at its full boundary: 255 bytes held. -/
def fullRing : State := ringAt 255 0 0 0x41

/-- The ring with one byte held, at slot 255. -/
def oneByte : State := ringAt 0 255 255 0xB2

theorem witness_DecodedRequestHasTheOperationsWord :
    decode .consumer ⟨0x0400, [0xAA], 0, 0, false⟩ = .ok (.crcCompute [0xAA]) ∧
    decode .consumer ⟨0x3000, [], 1, 2, true⟩ = .ok (.bvCheck 1 2 true) ∧
    decode .producer (requestOf 0x10 0xFF) = .ok (.rbPush 0xFF) := by decide

theorem witness_StepRunsTheDecodedRequest :
    let c := consumerAsks (requestOf 0x02 0x31)
    let p := producerAsks (requestOf 0x10 0x41)
    (c.resetIn = false ∧ c.producer = [] ∧ c.consumer = [requestOf 0x02 0x31] ∧
      decode .consumer (requestOf 0x02 0x31) = .ok (.crcUpdate 0x31)) ∧
    (p.resetIn = false ∧ p.consumer = [] ∧ p.producer = [requestOf 0x10 0x41] ∧
      decode .producer (requestOf 0x10 0x41) = .ok (.rbPush 0x41)) := by decide

theorem witness_ContestedStepRunsOneOfTheTwoRequests :
    let p := requestOf 0x10 0x42
    let c := requestOf 0x11 0x00
    (∀ a : Agent, (bothPending a).resetIn = false ∧ (bothPending a).producer = [p] ∧ (bothPending a).consumer = [c] ∧
      (bothPending a).order = [a]) ∧
    ({ bothPending .producer with order := [] } : State).order = [] ∧
    decode .producer p = .ok (.rbPush 0x42) ∧ decode .consumer c = .ok .rbPop := by
  exact ⟨fun a => by cases a <;> decide, by decide, by decide, by decide⟩

/-- Both requests pending, the one that goes first an operation and the other none: the first runs, the other stays. -/
theorem witness_contested_with_an_undecodable_request :
    (after (step { bothPending .producer with consumer := [requestOf 0x00 0x00] })).map
      (fun t => (t.rbHead, t.consumer)) = some (1, [requestOf 0x00 0x00]) := by decide

/-- Whatever the free value, one of the two clauses of an uncontrolled contest applies. -/
theorem witness_free_order : ∀ n, Config.servedFirst n = .producer ∨ Config.servedFirst n = .consumer := by
  intro n
  cases Config.servedFirst n <;> simp

theorem witness_StepRefusesWhatDoesNotDecode :
    (consumerAsks (requestOf 0x00 0x00)).resetIn = false ∧
    ServesNext .consumer (requestOf 0x00 0x00) (consumerAsks (requestOf 0x00 0x00)) ∧
    ServesNext .producer (requestOf 0x11 0x00) (producerAsks (requestOf 0x11 0x00)) ∧
    decode .consumer (requestOf 0x00 0x00) = .error .reservedOp ∧
    decode .consumer (requestOf 0x31 0x01) = .error .reservedData ∧
    decode .producer (requestOf 0x11 0x00) = .error .wrongAgent := by
  exact ⟨rfl, ⟨rfl, .inl rfl⟩, ⟨rfl, .inl rfl⟩, by decide, by decide, by decide⟩

/-- A contest of two requests of the wrong agent: the named agent's, and whichever the free value names, is served next and does
not decode. -/
theorem witness_contested_refusal :
    let s := { fresh with producer := [requestOf 0x11 0x00], consumer := [requestOf 0x10 0x42] }
    ServesNext .consumer (requestOf 0x10 0x42) { s with order := [.consumer] } ∧
    ServesNext .producer (requestOf 0x11 0x00) { s with order := [.producer] } ∧
    (∃ a r, ServesNext a r s ∧ decode a r = .error .wrongAgent) ∧ s.resetIn = false := by
  refine ⟨⟨rfl, .inr rfl⟩, ⟨rfl, .inr rfl⟩, ?_, rfl⟩
  cases h : Config.servedFirst fresh.draws
  · exact ⟨.producer, _, ⟨rfl, .inr h⟩, by decide⟩
  · exact ⟨.consumer, _, ⟨rfl, .inr h⟩, by decide⟩

theorem witness_StepWithoutRequestHoldsTheState :
    fresh.resetIn = false ∧ fresh.producer = [] ∧ fresh.consumer = [] := by decide

theorem witness_ResetStepGivesTheResetValues :
    let s := ({ collecting 30 reqPing with consumer := [requestOf 0x11 0x00] } : State).requestReset
    s.resetIn = true ∧ s.producer = [] ∧ s.consumer ≠ [] := by decide

theorem witness_ProducerBeforeResetIsRefused :
    (producerAsks (requestOf 0x10 0x42)).requestReset.resetIn = true ∧
    (producerAsks (requestOf 0x10 0x42)).requestReset.producer ≠ [] := by decide

theorem witness_ConfigurationIsCheckedAndKept :
    (0x08004003#32).toNat % 4 ≠ 0 ∧
    (excBuild.appBase.toNat % 4 = 0 ∧ ({ excBuild with forceBlEnabled := true } : BuildParams).forceBlEnabled = true) ∧
    (excBuild.appBase.toNat % 4 = 0 ∧ excBuild.forceBlEnabled = false) := by decide

theorem witness_PresentedWordIsRunByTheNextStep :
    decodeTableWord 16 0x10FF = some (.rbPush 0xFF) ∧ decodeTableWord 16 0x3100 = some .bvCheckImage := by decide

theorem witness_CrcInitClearsTheAccumulator : (0x01 : Byte) ≠ 0x00 ∧ (0xFF : Byte) ≠ 0x00 := by decide

set_option maxRecDepth 40000 in
theorem witness_CrcIsLinearAndDetectsEveryOneByteError :
    ([0x01, 0x02] : List Byte).length = ([0xFF, 0x00] : List Byte).length ∧ crcValid reqPing = true ∧
    (0 < 64 ∧ 63 < 64) ∧ (0x80 : Byte) ≠ 0x00 := by decide

theorem witness_CrcOperationsFrame :
    Instr.crcRead.blockUnit = .crcGenerator ∧ (∃ t, exec .crcRead fresh = .next t) ∧
    (Instr.crcUpdate 0x31).blockUnit = .crcGenerator ∧ ∃ t, exec (.crcUpdate 0x31) fresh = .next t :=
  ⟨rfl, ⟨_, rfl⟩, rfl, ⟨_, rfl⟩⟩

set_option maxRecDepth 4000 in
theorem witness_RbPushStoresOrDrops :
    (fullRing.rbHead.toNat + 1) % 256 = fullRing.rbTail.toNat ∧
    ((ringAt 255 1 0 0).rbHead.toNat + 1) % 256 ≠ (ringAt 255 1 0 0).rbTail.toNat := by decide

set_option maxRecDepth 4000 in
theorem witness_RbPopGivesTheOldestByte :
    (ringAt 255 255 0 0).rbHead = (ringAt 255 255 0 0).rbTail ∧ oneByte.rbHead ≠ oneByte.rbTail := by decide

set_option maxRecDepth 4000 in
theorem witness_OverflowAndUnderflowChangeNothing : fullRing.rbCount = 255 ∧ (ringAt 9 9 0 0).rbEmpty = true := by decide

theorem witness_EmptyRingAcceptsTheFirst255Pushes : fresh.rbEmpty = true := by decide

set_option maxRecDepth 4000 in
theorem witness_PushAndPopOrdersDifferOnlyAtTheBoundaries :
    fullRing.rbFull = true ∧ fresh.rbEmpty = true ∧ oneByte.rbFull = false ∧ oneByte.rbEmpty = false := by decide

set_option maxRecDepth 4000 in
theorem witness_SubStepInterleavingsAreAtomicOrders :
    (ringAt 255 1 0 0).rbFull = false ∧ fullRing.rbEmpty = false := by decide

/-- An interleaving of a push and a pop, both split, with the advances in the other order than the slot accesses. -/
theorem witness_split_push_and_pop :
    Merge (pushSubSteps 0x42) popSubSteps
      [.testFull, .testEmpty, .writeSlot 0x42, .readSlot, .advanceTail, .advanceHead] :=
  .producer (.consumer (.producer (.consumer (.consumer (.producer .nil)))))

set_option maxRecDepth 4000 in
/-- That interleaving on a ring holding one byte: the pop answers it and the push is held. -/
theorem test_split_push_and_pop :
    let r := runSubSteps [.testFull, .testEmpty, .writeSlot 0x42, .readSlot, .advanceTail, .advanceHead] oneByte
    r.answers = [some 0xB2] ∧ r.state.rbHead = 1 ∧ r.state.rbTail = 0 ∧ r.state.slot 0 = 0x42 :=
  ⟨by decide, by decide, by decide, by decide⟩

theorem witness_EverySubStepInterleavingIsAMergeOfAtomicOperations :
    Merge ([0x42].flatMap pushSubSteps) (List.replicate 1 popSubSteps).flatten
      [.testEmpty, .testFull, .readSlot, .writeSlot 0x42, .advanceHead, .advanceTail] :=
  .consumer (.producer (.consumer (.producer (.producer (.consumer .nil)))))

theorem witness_RingOperationsFrame :
    (Instr.rbPush 0x41).blockUnit = .ringFifo ∧ (∃ t, exec (.rbPush 0x41) fresh = .next t) ∧
    Instr.rbPop.blockUnit = .ringFifo ∧ ∃ t, exec .rbPop oneByte = .next t :=
  ⟨rfl, ⟨_, rfl⟩, rfl, ⟨_, rfl⟩⟩

theorem witness_PsFeedWaitsForTheStartMarker :
    fresh.psState = .waitStart ∧ (0xB2 : Byte) = 0xB2 ∧ (0xB3 : Byte) ≠ 0xB2 := by decide

set_option maxRecDepth 4000 in
theorem witness_PsFeedStoresAByteOfTheFrame :
    (collecting 1 reqPing).psState = .collecting ∧ (collecting 1 reqPing).psPos.toNat ≤ 62 ∧
    (collecting 62 reqPing).psState = .collecting ∧ (collecting 62 reqPing).psPos.toNat ≤ 62 := by decide

theorem witness_PsFeedCompletesTheFrame :
    (collecting 63 reqPing).psState = .collecting ∧ (collecting 63 reqPing).psPos = 63 := by decide

theorem witness_ByteValueNeverMovesACollectingParser :
    (collecting 1 reqPing).psState = .collecting ∧ (collecting 63 reqPing).psState = .collecting := by decide

set_option maxRecDepth 4000 in
theorem witness_PsPollIsPopThenFeed :
    fresh.rbEmpty = true ∧ oneByte.rbEmpty = false ∧ oneByte.rbFull = false ∧
    fullRing.rbEmpty = false ∧ fullRing.rbFull = true := by decide

set_option maxRecDepth 40000 in
theorem witness_YieldedFramesAreMarkedAndCrcValid :
    ParserInv (collecting 63 reqPing) ∧
    outOf (exec (.psFeed 0x6A) (collecting 63 reqPing)) = some ⟨none, none, some (some reqPing), none⟩ := by decide

theorem witness_ParserYieldsExactlyTheValidWindows : fresh.psState = .waitStart := by decide

/-- A stream has frame starts: noise, then the marker. -/
theorem witness_frame_start : FrameStart [0x55, 0xB2, 0x00] 1 :=
  .first rfl fun j hj => by
    match j, hj with
    | 0, _ => decide

theorem witness_ParserOperationsFrame :
    (Instr.psFeed 0xB2).blockUnit = .parser ∧ (∃ t, exec (.psFeed 0xB2) (collecting 5 reqPing) = .next t) ∧
    Instr.psPoll.blockUnit = .parser ∧ (∃ t, exec .psPoll fresh = .next t) ∧
    fresh.psState = .waitStart ∧ (collecting 5 reqPing).psState = .collecting :=
  ⟨rfl, ⟨_, rfl⟩, rfl, ⟨_, rfl⟩, rfl, rfl⟩

theorem witness_SpCheckAcceptsOnlyIfMatchLiesInMask :
    exc.ramMatch &&& ~~~exc.ramMask = 0 ∧
    ({ exc with ramMatch := 0x20000001 } : OpenParams).ramMatch &&& ~~~exc.ramMask ≠ 0 := by decide

theorem witness_ValidatorOperationsFrame :
    (Instr.bvCheck 1 2 true).blockUnit = .validator ∧ (∃ t, exec (.bvCheck 1 2 true) fresh = .next t) ∧
    Instr.bvCheckImage.blockUnit = .validator ∧ ∃ t, exec .bvCheckImage fresh = .next t :=
  ⟨rfl, ⟨_, rfl⟩, rfl, ⟨_, rfl⟩⟩

theorem witness_StepStopsOnlyForNamedRefusals :
    step (consumerAsks (requestOf 0x00 0x00)) = .refused .reservedOp ∧
    step (consumerAsks (requestOf 0x31 0x01)) = .refused .reservedData ∧
    step (producerAsks (requestOf 0x11 0x00)) = .refused .wrongAgent ∧
    step (producerAsks (requestOf 0x10 0x42)).requestReset = .refused .producerBeforeReset :=
  ⟨rfl, rfl, rfl, rfl⟩

set_option maxRecDepth 4000 in
/-- Each clause of the statement: an operation that changes the field. -/
theorem witness_OnlyTheNamedOperationsWriteAField :
    ((after (exec (.crcUpdate 0x01) fresh)).map fun t => t.crcAcc) = some 0x07 ∧
    ((after (exec (.rbPush 0x41) fresh)).map fun t => (t.rbHead, t.slot 0)) = some (1, 0x41) ∧
    ((after (exec .psPoll oneByte)).map fun t => (t.rbTail, t.psState, t.psPos)) = some (0, .collecting, 1) := by decide

theorem witness_OutputsAreDrivenByTheNamedOperations :
    (∃ t, exec .crcRead fresh = .next t) ∧ (∃ t, exec .rbPop fresh = .next t) ∧ (∃ t, exec (.psFeed 0x55) fresh = .next t) ∧
    ∃ t, exec .bvCheckImage fresh = .next t := ⟨⟨_, rfl⟩, ⟨_, rfl⟩, ⟨_, rfl⟩, ⟨_, rfl⟩⟩

set_option maxRecDepth 40000 in
/-- Each error kind is met by some operation. -/
theorem witness_ErrorKindsExcludeEachOtherAndHaveTheirEffects :
    kindMet .sync (.psFeed 0x55) fresh = true ∧ kindMet .sync .psPoll (ringAt 1 0 0 0x55) = true ∧
    kindMet .crc (.psFeed 0x6B) (collecting 63 reqPing) = true ∧ kindMet .overflow (.rbPush 0x01) fullRing = true ∧
    kindMet .empty .rbPop fresh = true ∧ kindMet .empty .psPoll fresh = true ∧
    kindMet .image (.bvCheck 0x30005000 0x08004199 false) fresh = true := by decide

theorem witness_StepNeverChangesFlashOrConfiguration : ∃ t, step (consumerAsks (requestOf 0x31 0x00)) = .next t := ⟨_, rfl⟩

set_option maxRecDepth 4000 in
theorem witness_StepKeepsTheMachineInvariant :
    MachineInv { collecting 63 reqPing with consumer := [requestOf 0x20 0x6A] } ∧
    ∃ t, step { collecting 63 reqPing with consumer := [requestOf 0x20 0x6A] } = .next t := ⟨by decide, ⟨_, rfl⟩⟩

/-- A state that differs from `fresh` in everything no output shows: the ring's stale slots and indices, the scratch frame. -/
def freshElsewhere : State :=
  { fresh with rbMem := Vector.replicate 256 1, rbHead := 5, rbTail := 5, psBuf := Vector.replicate 64 7 }

set_option maxRecDepth 4000 in
theorem witness_UnwrittenStorageIsNeverObservable : SameVisible fresh freshElsewhere ∧ fresh ≠ freshElsewhere :=
  ⟨⟨rfl, by decide, rfl, fun h => by simp [fresh, State.reset] at h, rfl, fun _ => rfl⟩, by decide⟩

/-- Two merges of a push and a pop. -/
theorem witness_EveryMergeOfTheAgentsIsAdmitted :
    Merge [Instr.rbPush 0x42] [.rbPop] [.rbPush 0x42, .rbPop] ∧ Merge [Instr.rbPush 0x42] [.rbPop] [.rbPop, .rbPush 0x42] ∧
    (∀ p ∈ [Instr.rbPush 0x42], p.owner = .producer) ∧ (∀ c ∈ [Instr.rbPop], c.owner = .consumer) ∧
    fresh.producer = [] ∧ fresh.consumer = [] ∧ fresh.order = [] ∧ fresh.resetIn = false :=
  ⟨.producer (.consumer .nil), .consumer (.producer .nil), by decide, by decide, rfl, rfl, rfl, rfl⟩

theorem witness_EveryRunIsAMergeOfTheAgents :
    (∀ p ∈ [Instr.rbPush 0x42, .rbPush 0x43], p.owner = .producer) ∧ (∀ c ∈ [Instr.psPoll], c.owner = .consumer) ∧
    fresh.producer = [] ∧ fresh.consumer = [] ∧ fresh.resetIn = false := by decide

end Sys2Proof.Tests
end

section
/-! SUPPORT. Requests by selector and `DATA`, and the decoder on them (spec/30_encoding.md R70 to R73). -/

namespace Sys2Proof.Machine

/-- `OP` of a request built from its two bytes (R70). -/
@[simp] theorem requestOf_op (op d : Byte) : (requestOf op d).op = op := extract_op op d

/-- `DATA` of a request built from its two bytes (R70). -/
@[simp] theorem requestOf_data (op d : Byte) : (requestOf op d).data = d := extract_data op d

/-- A request that stands for an operation decodes for the operation's agent alone (R12, R73). -/
theorem decode_of_decodeWord {r : Request} {i : Instr} (h : decodeWord r = .ok i) (a : Agent) :
    decode a r = if a = i.owner then .ok i else .error .wrongAgent := by
  simp only [decode, h]

/-- Selector 0x02 is CRC_UPDATE of `DATA`, whatever `DATA` is (R71, R105). -/
theorem decodeWord_crcUpdate (d : Byte) : decodeWord (requestOf 0x02 d) = .ok (.crcUpdate d) := by
  simp [decodeWord]

end Sys2Proof.Machine
end

section
/-! PROOF. The CRC byte step and CRC_UPDATE (spec/40_crc8.md R101, R102, R105). -/

namespace Sys2Proof.Machine

/-- CRC_UPDATE's effect: the accumulator takes the byte step, and no output is driven (R105). -/
theorem exec_crcUpdate (d : Byte) (s : State) :
    exec (.crcUpdate d) s = .next ((s.setCrc (crcStep s.crcAcc d)).respond quiet) := rfl

/-- The residue property: the accumulator fed its own value (R105, R109). -/
@[simp] theorem crcStep_self (d : Byte) : crcStep d d = 0x00 := by
  rw [crcStep_eq, BitVec.xor_self]
  decide

/-- One bit position, by the top bit as `msb` (R102). -/
theorem crcShift_eq_msb (a : Byte) : crcShift a = if a.msb then (a <<< 1) ^^^ 0x07 else a <<< 1 := by
  rw [crcShift, Config.crcPoly, BitVec.msb_eq_getLsbD_last, BitVec.getLsbD_eq_getElem (by decide)]

/-- The byte step is eight bit positions (R102). -/
theorem crcStep_eq_eight_crcShift (acc b : Byte) :
    crcStep acc b =
      crcShift (crcShift (crcShift (crcShift (crcShift (crcShift (crcShift (crcShift (acc ^^^ b)))))))) := rfl

set_option maxRecDepth 40000 in
/-- The table's entries are the byte steps on a zero accumulator (R102), checked entry by entry. -/
theorem byteTable_getElem? : ∀ x : Byte, byteTable[x.toNat]? = some (crcStep 0x00 x) := by decide

/-- Settles O15: the effect and the decoding of CRC_UPDATE by their lemmas, and the corner cases by the residue property. -/
theorem crcUpdateFeedsOneByte : Obligations.CrcUpdateFeedsOneByte := by
  refine ⟨fun d s => ⟨exec_crcUpdate d s, ?_, ?_⟩, crcStep_self, crcStep_self 0x00, by decide⟩
  · exact decode_of_decodeWord (decodeWord_crcUpdate d) .consumer
  · exact decode_of_decodeWord (decodeWord_crcUpdate d) .producer

/-- Settles O18: the byte step is eight shifts of the XOR, so it depends on the XOR alone and a table of 256 entries holds it. -/
theorem crcIsTheFoldOfEightShifts : Obligations.CrcIsTheFoldOfEightShifts := by
  refine ⟨fun acc b => ?_, crc8_nil, crc8_snoc, crcStep_eq, fun acc b => ?_⟩
  · simp only [crcStep_eq_eight_crcShift, crcShift_eq_msb]
  · rw [crcStep_eq, byteTable_getElem?]

end Sys2Proof.Machine
end

section
/-! SUPPORT. The ring's index arithmetic, its predicates in plain numbers, its slots after a push, and the effect of RB_PUSH and
RB_POP (spec/41_ring_fifo.md R121 to R126; spec/10_state.md R32 to R34). -/

namespace Sys2Proof.Machine

/-- `next` in plain numbers (R121). -/
@[simp] theorem nextIndex_toNat (i : Byte) : (nextIndex i).toNat = (i.toNat + 1) % 256 := BitVec.toNat_add i 1

/-- `RB_FULL` in plain numbers (R33). -/
theorem rbFull_iff (s : State) : s.rbFull = true ↔ (s.rbHead.toNat + 1) % 256 = s.rbTail.toNat := by
  rw [State.rbFull, beq_iff_eq, ← BitVec.toNat_inj, nextIndex_toNat]

/-- `RB_COUNT` in plain numbers (R34). -/
theorem rbCount_eq (s : State) : s.rbCount = (s.rbHead.toNat + 256 - s.rbTail.toNat) % 256 := by
  have := s.rbTail.isLt
  rw [State.rbCount, BitVec.toNat_sub]
  omega

/-- The ring is full exactly when it holds 255 bytes (R33, R34). -/
theorem rbFull_iff_rbCount (s : State) : s.rbFull = true ↔ s.rbCount = 255 := by
  have hh := s.rbHead.isLt
  have ht := s.rbTail.isLt
  rw [rbFull_iff, rbCount_eq]
  omega

section
variable (s : State)

/-- The slot a push writes holds its byte (R122). -/
@[simp] theorem pushWrite_slot_rbHead (d : Byte) : (s.pushWrite d).slot s.rbHead = d :=
  Vector.getElem_set_self _

/-- A push leaves every other slot as it was (R122). -/
theorem pushWrite_slot_of_ne (d : Byte) {j : Byte} (hj : j ≠ s.rbHead) : (s.pushWrite d).slot j = s.slot j :=
  Vector.getElem_set_ne s.rbHead.isLt j.isLt fun h => hj (BitVec.eq_of_toNat_eq h.symm)

/-- Advancing the head moves no byte (R122). -/
@[simp] theorem pushAdvance_slot (j : Byte) : s.pushAdvance.slot j = s.slot j := rfl

/-- Driving outputs moves no byte (R70). -/
@[simp] theorem respond_slot (r : Response) (j : Byte) : (s.respond r).slot j = s.slot j := rfl

/-- The bytes held do not depend on the outputs of the last operation (R70). -/
@[simp] theorem ringContents_respond (r : Response) : ringContents (s.respond r) = ringContents s := rfl

/-- RB_PUSH's effect: the ring's push, and no output is driven (R122). -/
theorem exec_rbPush (d : Byte) : exec (.rbPush d) s = .next ((s.ringPush d).respond quiet) := rfl

/-- RB_POP's effect: the ring's pop, whose result is driven (R123). -/
theorem exec_rbPop : exec .rbPop s = .next (s.ringPop.2.respond (popOut s.ringPop.1)) := rfl

end

/-- RB_PUSH on a full ring drops the byte (R122, R125). -/
theorem exec_rbPush_of_rbFull {s : State} (h : s.rbFull = true) (d : Byte) :
    exec (.rbPush d) s = .next (s.respond quiet) := by
  have hpush : s.ringPush d = s := by simpa [h] using ringPush_cases d s
  rw [exec_rbPush, hpush]

/-- RB_PUSH on a ring that is not full writes the slot at the head and advances the head (R122). -/
theorem exec_rbPush_of_not_rbFull {s : State} (h : ¬ s.rbFull = true) (d : Byte) :
    exec (.rbPush d) s = .next ((s.pushWrite d).pushAdvance.respond quiet) := by
  have hpush : s.ringPush d = (s.pushWrite d).pushAdvance := by simpa [h] using ringPush_cases d s
  rw [exec_rbPush, hpush]

/-- RB_POP on an empty ring answers `VALID = 0` (R123, R126). -/
theorem exec_rbPop_of_rbEmpty {s : State} (h : s.rbEmpty = true) : exec .rbPop s = .next (s.respond noData) := by
  have hpop : s.ringPop = (none, s) := by simpa [h] using ringPop_cases s
  rw [exec_rbPop, hpop, popOut]

/-- Selector 0x10 is RB_PUSH of `DATA`, whatever `DATA` is (R71, R122). -/
theorem decodeWord_rbPush (d : Byte) : decodeWord (requestOf 0x10 d) = .ok (.rbPush d) := by
  simp [decodeWord]

end Sys2Proof.Machine
end

section
/-! PROOF. RB_PUSH, overflow and underflow (spec/41_ring_fifo.md R122, R125, R126). -/

namespace Sys2Proof.Machine

/-- Settles O26: the two cases of RB_PUSH by the full ring in plain numbers, and the decoding by the request's owner. -/
theorem rbPushStoresOrDrops : Obligations.RbPushStoresOrDrops := by
  intro d s
  refine ⟨fun hfull => ?_, fun hroom => ?_, ?_, ?_⟩
  · exact exec_rbPush_of_rbFull ((rbFull_iff s).mpr hfull) d
  · have hexec := exec_rbPush_of_not_rbFull (mt (rbFull_iff s).mp hroom) d
    exact ⟨_, hexec, nextIndex_toNat s.rbHead, by simp, fun j hj => by simp [pushWrite_slot_of_ne s d hj], rfl⟩
  · exact decode_of_decodeWord (decodeWord_rbPush d) .producer
  · exact decode_of_decodeWord (decodeWord_rbPush d) .consumer

/-- Settles O30: a ring holding 255 bytes is full, so a push changes only the outputs, as does a pop on an empty ring. -/
theorem overflowAndUnderflowChangeNothing : Obligations.OverflowAndUnderflowChangeNothing := by
  constructor
  · intro s d hcount
    have hexec := exec_rbPush_of_rbFull ((rbFull_iff_rbCount s).mpr hcount) d
    exact ⟨_, hexec, rfl, rfl, rfl, ringContents_respond s quiet, rfl⟩
  · intro s hempty
    exact ⟨_, exec_rbPop_of_rbEmpty hempty, rfl, rfl⟩

end Sys2Proof.Machine
end

section
/-! PROOF. PS_FEED of a byte inside a frame (spec/42_frame_parser.md R142, R145). -/

namespace Sys2Proof.Machine

/-- PS_FEED's effect: the parser's byte step, whose result is driven on `FRAME_OUT` (R141 to R144). -/
theorem exec_psFeed (d : Byte) (s : State) :
    exec (.psFeed d) s = .next ((s.feed d).2.respond (frameOnly (s.feed d).1)) := rfl

/-- PS_FEED inside a frame, before its last byte, stores the byte whatever its value, and yields no frame (R142, R145). -/
theorem exec_psFeed_of_collecting {s : State} (hst : s.psState = .collecting) (hpos : s.psPos ≠ 63) (d : Byte) :
    exec (.psFeed d) s = .next ((s.storeByte d).respond (frameOnly none)) := by
  have hfeed : s.feed d = (none, s.storeByte d) := by
    rcases feed_cases d s with ⟨hwait, _⟩ | ⟨hwait, _⟩ | ⟨_, _, hstore⟩ | ⟨_, hlast, _⟩
    · simp [hst] at hwait
    · simp [hst] at hwait
    · exact hstore
    · exact absurd hlast hpos
  rw [exec_psFeed, hfeed]

/-- Settles O37: below position 63 the byte is stored, and the position, a six-bit number, grows without wrapping. -/
theorem psFeedStoresAByteOfTheFrame : Obligations.PsFeedStoresAByteOfTheFrame := by
  intro d s hst hpos
  have hne : s.psPos ≠ 63 := by bv_omega
  have hnext : (s.psPos + 1).toNat = s.psPos.toNat + 1 := by bv_omega
  exact ⟨_, exec_psFeed_of_collecting hst hne d, hnext, rfl, rfl⟩

end Sys2Proof.Machine
end

section
/-! SUPPORT. The decoder taken apart once: its value on each encoded operation, what a decoded word tells about its request, and
which words have no operation (spec/30_encoding.md R70 to R73). -/

namespace Sys2Proof

/-- The word of an encoded operation decodes to that operation (R71, R72). -/
@[simp] theorem decodeWord_encode (i : Instr) : decodeWord (encode i) = .ok i := by
  have hop := encode_op i
  have hdata := encode_data i
  cases i <;>
    simp only [decodeWord, Request.withoutData, hop, hdata, Instr.opcode, Instr.dataByte, if_true, BitVec.ofNat_eq_ofNat] <;> rfl

/-- The owner's encoded operation decodes to that operation (R12, R71). -/
@[simp] theorem decode_encode_owner (i : Instr) : decode i.owner (encode i) = .ok i := by
  rw [Machine.decode_of_decodeWord (decodeWord_encode i), if_pos rfl]

/-- An operation without a byte operand decodes only with `DATA` 0x00 (R73). -/
theorem withoutData_eq_ok {r : Request} {i j : Instr} : r.withoutData i = .ok j ↔ r.data = 0x00 ∧ i = j := by
  unfold Request.withoutData
  split <;> simp_all

/-- An operation without a byte operand is refused only for its `DATA` (R73). -/
theorem withoutData_eq_error {r : Request} {i : Instr} {e : Reject} :
    r.withoutData i = .error e ↔ r.data ≠ 0x00 ∧ e = .reservedData := by
  unfold Request.withoutData
  split <;> simp_all [eq_comm]

/-- A decoded word has the operation's selector, its byte operand and its side operands (R71, R72). -/
theorem decodeWord_eq_ok {r : Request} {i : Instr} (h : decodeWord r = .ok i) :
    r.op = i.opcode ∧ r.data = i.dataByte ∧ (∀ seq, i = .crcCompute seq → r.seq = seq) ∧
      ∀ sp rv force, i = .bvCheck sp rv force → r.spIn = sp ∧ r.rvIn = rv ∧ r.forceIn = force := by
  unfold decodeWord at h
  split at h <;> simp only [withoutData_eq_ok, Except.ok.injEq, reduceCtorEq] at h
  case h_1 | h_3 | h_4 | h_6 | h_8 | h_9 | h_10 =>
    obtain ⟨hdata, rfl⟩ := h
    simp_all [Instr.opcode, Instr.dataByte]
  case h_2 | h_5 | h_7 =>
    subst h
    simp_all [Instr.opcode, Instr.dataByte]

/-- A word is reserved exactly when its selector is none of the ten (R73). -/
theorem decodeWord_eq_reservedOp (r : Request) : decodeWord r = .error .reservedOp ↔
    r.op ∉ [0x01#8, 0x02#8, 0x03#8, 0x04#8, 0x10#8, 0x11#8, 0x20#8, 0x21#8, 0x30#8, 0x31#8] := by
  unfold decodeWord
  split <;> simp_all [withoutData_eq_error]

/-- A word has stray `DATA` exactly when its selector takes none and `DATA` is not 0x00 (R73). -/
theorem decodeWord_eq_reservedData (r : Request) : decodeWord r = .error .reservedData ↔
    r.op ∈ [0x01#8, 0x03#8, 0x04#8, 0x11#8, 0x21#8, 0x30#8, 0x31#8] ∧ r.data ≠ 0x00#8 := by
  unfold decodeWord
  split <;> simp_all [withoutData_eq_error]

/-- A word by itself is never refused for its agent (R73). -/
theorem decodeWord_ne_wrongAgent (r : Request) : decodeWord r ≠ .error .wrongAgent := by
  unfold decodeWord
  split <;> simp [withoutData_eq_error]

/-- A word has an operation exactly when its selector takes a byte, or takes none and `DATA` is 0x00 (R71, R73). -/
theorem decodeWord_isOk_iff (r : Request) : (∃ i, decodeWord r = .ok i) ↔
    r.op ∈ [0x02#8, 0x10#8, 0x20#8] ∨
      (r.op ∈ [0x01#8, 0x03#8, 0x04#8, 0x11#8, 0x21#8, 0x30#8, 0x31#8] ∧ r.data = 0x00#8) := by
  unfold decodeWord
  split <;> simp_all [withoutData_eq_ok]

/-- Selector 0x10 alone is the producer's (R12, R71). -/
theorem owner_of_decodeWord {r : Request} {i : Instr} (h : decodeWord r = .ok i) :
    i.owner = if r.op = 0x10 then .producer else .consumer := by
  obtain ⟨hop, -⟩ := decodeWord_eq_ok h
  rw [hop]
  cases i <;> rfl

/-- A request decodes exactly when its word does and its agent is the owner (R12, R73). -/
theorem decode_eq_ok {a : Agent} {r : Request} {i : Instr} :
    decode a r = .ok i ↔ decodeWord r = .ok i ∧ a = i.owner := by
  unfold decode
  split
  · simp_all
  · split
    · simp_all
    · simp_all only [Except.ok.injEq, reduceCtorEq, false_iff, not_and]
      rintro rfl
      assumption

/-- A request is refused for its word exactly when the word is (R194). -/
theorem decode_eq_error_of_ne {a : Agent} {r : Request} {e : Reject} (he : e ≠ .wrongAgent) :
    decode a r = .error e ↔ decodeWord r = .error e := by
  unfold decode
  split
  · simp_all
  · split <;> simp_all [Ne.symm he]

/-- A request is refused for its agent exactly when its word has an operation and the other agent owns it (R12, R194). -/
theorem decode_eq_wrongAgent {a : Agent} {r : Request} :
    decode a r = .error .wrongAgent ↔ ∃ i, decodeWord r = .ok i ∧ a ≠ i.owner := by
  have hword := decodeWord_ne_wrongAgent r
  unfold decode
  split
  · simp_all
  · split <;> simp_all

end Sys2Proof
end

section
/-! PROOF. The request format: round trip, decoded words and refusals (spec/30_encoding.md R70 to R73). -/

namespace Sys2Proof

open Machine

/-- Settles O1: the owner's encoded operation decodes to that operation. -/
theorem decodeOfEncodeIsTheOperation : Obligations.DecodeOfEncodeIsTheOperation := decode_encode_owner

/-- Settles O2: a request word is its two bytes, which decoding determines. -/
theorem decodedRequestHasTheOperationsWord : Obligations.DecodedRequestHasTheOperationsWord := by
  intro a r i h
  obtain ⟨hword, howner⟩ := decode_eq_ok.mp h
  obtain ⟨hop, hdata, hseq, hbv⟩ := decodeWord_eq_ok hword
  exact ⟨by rw [← op_append_data, hop, hdata, Instr.word], howner, hseq, hbv⟩

set_option maxRecDepth 40000 in
/-- Ten of the 256 selectors are in the table (R73), counted one by one. -/
theorem reserved_selectors_length :
    ((List.range 256).filter fun n =>
      decodeWord (requestOf (BitVec.ofNat 8 n) 0x00) == .error .reservedOp).length = 246 := by decide

/-- Settles O3: the word's reasons come first, and what is left is a word with an operation that the other agent owns. -/
theorem refusalReasonIsTheFirstThatApplies : Obligations.RefusalReasonIsTheFirstThatApplies := by
  refine ⟨fun a r => ⟨?_, ?_, ?_⟩, reserved_selectors_length⟩
  · rw [decode_eq_error_of_ne (by decide), decodeWord_eq_reservedOp]
  · rw [decode_eq_error_of_ne (by decide), decodeWord_eq_reservedData]
  · have howner : decode a r = .error .wrongAgent ↔
        (∃ i, decodeWord r = .ok i) ∧ a ≠ if r.op = 0x10 then .producer else .consumer := by
      rw [decode_eq_wrongAgent, ← exists_and_right]
      exact exists_congr fun i => and_congr_right fun h => by rw [owner_of_decodeWord h]
    rw [howner, decodeWord_isOk_iff]
    by_cases hpush : r.op = 0x10#8
    · cases a <;> simp [hpush]
    · cases a <;> simp [hpush]

/-- Settles O4: the seven words, decoded. -/
theorem sampleWordsDecode : Obligations.SampleWordsDecode := by
  unfold Obligations.SampleWordsDecode
  decide

end Sys2Proof
end

section
/-! SUPPORT. One lemma per field that a push, a pop or a byte step leaves alone (spec/10_state.md R20, R26). -/

namespace Sys2Proof.Machine

variable (d : Byte) (s : State)

@[simp] theorem ringPush_crcAcc : (s.ringPush d).crcAcc = s.crcAcc := by rw [ringPush_frame]
@[simp] theorem ringPush_rbTail : (s.ringPush d).rbTail = s.rbTail := by rw [ringPush_frame]
@[simp] theorem ringPush_psState : (s.ringPush d).psState = s.psState := by rw [ringPush_frame]
@[simp] theorem ringPush_psPos : (s.ringPush d).psPos = s.psPos := by rw [ringPush_frame]
@[simp] theorem ringPush_psBuf : (s.ringPush d).psBuf = s.psBuf := by rw [ringPush_frame]
@[simp] theorem ringPush_flash : (s.ringPush d).flash = s.flash := by rw [ringPush_frame]
@[simp] theorem ringPush_cfg : (s.ringPush d).cfg = s.cfg := by rw [ringPush_frame]
@[simp] theorem ringPush_out : (s.ringPush d).out = s.out := by rw [ringPush_frame]

@[simp] theorem ringPop_crcAcc : s.ringPop.2.crcAcc = s.crcAcc := by rw [ringPop_frame]
@[simp] theorem ringPop_rbMem : s.ringPop.2.rbMem = s.rbMem := by rw [ringPop_frame]
@[simp] theorem ringPop_rbHead : s.ringPop.2.rbHead = s.rbHead := by rw [ringPop_frame]
@[simp] theorem ringPop_psState : s.ringPop.2.psState = s.psState := by rw [ringPop_frame]
@[simp] theorem ringPop_psPos : s.ringPop.2.psPos = s.psPos := by rw [ringPop_frame]
@[simp] theorem ringPop_psBuf : s.ringPop.2.psBuf = s.psBuf := by rw [ringPop_frame]
@[simp] theorem ringPop_flash : s.ringPop.2.flash = s.flash := by rw [ringPop_frame]
@[simp] theorem ringPop_cfg : s.ringPop.2.cfg = s.cfg := by rw [ringPop_frame]
@[simp] theorem ringPop_out : s.ringPop.2.out = s.out := by rw [ringPop_frame]

@[simp] theorem feed_crcAcc : (s.feed d).2.crcAcc = s.crcAcc := by rw [feed_frame]
@[simp] theorem feed_rbMem : (s.feed d).2.rbMem = s.rbMem := by rw [feed_frame]
@[simp] theorem feed_rbHead : (s.feed d).2.rbHead = s.rbHead := by rw [feed_frame]
@[simp] theorem feed_rbTail : (s.feed d).2.rbTail = s.rbTail := by rw [feed_frame]
@[simp] theorem feed_flash : (s.feed d).2.flash = s.flash := by rw [feed_frame]
@[simp] theorem feed_cfg : (s.feed d).2.cfg = s.cfg := by rw [feed_frame]

end Sys2Proof.Machine
end

section
/-! SUPPORT. Every operation completes, so each has an effect: the state it leaves. One equation per operation, what every
effect leaves alone, and sequences of operations in terms of effects (spec/30_encoding.md R71, spec/60_exceptions.md R190). -/

namespace Sys2Proof.Machine

/-- A push on a full ring (R122). -/
theorem ringPush_of_rbFull {s : State} (h : s.rbFull = true) (d : Byte) : s.ringPush d = s := if_pos h

/-- A push on a ring that is not full (R122). -/
theorem ringPush_of_not_rbFull {s : State} (h : s.rbFull = false) (d : Byte) :
    s.ringPush d = (s.pushWrite d).pushAdvance := if_neg (by simp [h])

/-- A pop on an empty ring (R123). -/
theorem ringPop_of_rbEmpty {s : State} (h : s.rbEmpty = true) : s.ringPop = (none, s) := if_pos h

/-- A pop on a ring that holds a byte (R123). -/
theorem ringPop_of_not_rbEmpty {s : State} (h : s.rbEmpty = false) :
    s.ringPop = (some (s.slot s.rbTail), s.popAdvance) := if_neg (by simp [h])

section
variable {s : State} {d : Byte}

/-- In WAIT_START a byte other than the marker is discarded (R141). -/
theorem feed_of_noise (h : s.psState = .waitStart) (hd : d ≠ Config.startMarker) : s.feed d = (none, s) := by
  simp only [State.feed, h, if_neg hd]

/-- In WAIT_START the marker opens a frame (R141). -/
theorem feed_of_marker (h : s.psState = .waitStart) (hd : d = Config.startMarker) :
    s.feed d = (none, s.openFrame d) := by
  simp only [State.feed, h, if_pos hd]

/-- In COLLECTING a byte before the last is stored (R142). -/
theorem feed_of_inside (h : s.psState = .collecting) (hp : s.psPos ≠ 63) (d : Byte) :
    s.feed d = (none, s.storeByte d) := by
  simp only [State.feed, h, if_neg hp]

/-- In COLLECTING the last byte closes the frame, which is yielded if it is CRC-valid (R143). -/
theorem feed_of_last (h : s.psState = .collecting) (hp : s.psPos = 63) (d : Byte) :
    s.feed d = (yielded (s.psBuf.set 63 d), s.closeFrame d) := by
  simp only [State.feed, h, if_pos hp, closeFrame_psBuf]

end

/-- The state PS_POLL leaves: the result of the pop, fed to the parser if there is one (R147). -/
def State.poll (s : State) : State :=
  match s.ringPop with
  | (some b, t) => (t.feed b).2.respond (pollOut (some b) (t.feed b).1)
  | (none, t) => t.respond (pollOut none none)

/-- The state an operation leaves: `exec_eq_effect` ties it to `exec`. -/
def effect (i : Instr) (s : State) : State :=
  match i with
  | .crcInit => (s.setCrc Config.crcInit).respond quiet
  | .crcUpdate d => (s.setCrc (crcStep s.crcAcc d)).respond quiet
  | .crcRead => s.respond (dataOut s.crcAcc)
  | .crcCompute seq => (s.setCrc (crc8 seq)).respond (dataOut (crc8 seq))
  | .rbPush d => (s.ringPush d).respond quiet
  | .rbPop => s.ringPop.2.respond (popOut s.ringPop.1)
  | .psFeed d => (s.feed d).2.respond (frameOnly (s.feed d).1)
  | .psPoll => s.poll
  | .bvCheck sp rv force => s.respond (bootOut (bootOk s.cfg sp rv force))
  | .bvCheckImage => s.respond (bootOut (bootOk s.cfg s.spWord s.rvWord false))

/-- PS_POLL on an empty ring changes only the outputs (R147). -/
theorem poll_of_rbEmpty {s : State} (h : s.rbEmpty = true) : s.poll = s.respond (pollOut none none) := by
  simp only [State.poll, ringPop_of_rbEmpty h]

/-- PS_POLL on a ring that holds a byte pops it and feeds it (R147). -/
theorem poll_of_not_rbEmpty {s : State} (h : s.rbEmpty = false) :
    s.poll = (s.popAdvance.feed (s.slot s.rbTail)).2.respond
      (pollOut (some (s.slot s.rbTail)) (s.popAdvance.feed (s.slot s.rbTail)).1) := by
  simp only [State.poll, ringPop_of_not_rbEmpty h]

/-- RB_PUSH's effect (R122). -/
theorem effect_rbPush (d : Byte) (s : State) : effect (.rbPush d) s = (s.ringPush d).respond quiet := rfl

/-- RB_POP's effect (R123). -/
theorem effect_rbPop (s : State) : effect .rbPop s = s.ringPop.2.respond (popOut s.ringPop.1) := rfl

/-- PS_FEED's effect (R141 to R144). -/
theorem effect_psFeed (d : Byte) (s : State) : effect (.psFeed d) s = (s.feed d).2.respond (frameOnly (s.feed d).1) := rfl

/-- PS_POLL's effect (R147). -/
theorem effect_psPoll (s : State) : effect .psPoll s = s.poll := rfl

/-- Every operation completes, with its effect (R190, R195). -/
theorem exec_eq_effect (i : Instr) (s : State) : exec i s = .next (effect i s) := by
  cases i with
  | psPoll =>
    rcases ringPop_cases s with ⟨-, hpop⟩ | ⟨-, hpop⟩ <;> simp only [exec, execPsPoll, effect, State.poll, hpop]
  | _ => rfl

/-- What an operation goes on with is its effect. -/
theorem exec_eq_next_iff {i : Instr} {s t : State} : exec i s = .next t ↔ t = effect i s := by
  rw [exec_eq_effect, Host.Outcome.next.injEq, eq_comm]

section
variable (i : Instr) (s : State)

/-- An operation leaves everything but the fields of the block and the outputs (R20). -/
theorem effect_frame : effect i s =
    { s with
      crcAcc := (effect i s).crcAcc
      rbMem := (effect i s).rbMem
      rbHead := (effect i s).rbHead
      rbTail := (effect i s).rbTail
      psState := (effect i s).psState
      psPos := (effect i s).psPos
      psBuf := (effect i s).psBuf
      out := (effect i s).out } := by
  cases i with
  | rbPush d => rw [effect, ringPush_frame d s]; rfl
  | rbPop => rw [effect, ringPop_frame s]; rfl
  | psFeed d => rw [effect, feed_frame d s]; rfl
  | psPoll =>
    cases h : s.rbEmpty with
    | true => rw [effect, poll_of_rbEmpty h]; rfl
    | false => rw [effect, poll_of_not_rbEmpty h, feed_frame]; rfl
  | _ => rfl

@[simp] theorem effect_flash : (effect i s).flash = s.flash := by rw [effect_frame]
@[simp] theorem effect_cfg : (effect i s).cfg = s.cfg := by rw [effect_frame]
@[simp] theorem effect_producer : (effect i s).producer = s.producer := by rw [effect_frame]
@[simp] theorem effect_consumer : (effect i s).consumer = s.consumer := by rw [effect_frame]
@[simp] theorem effect_order : (effect i s).order = s.order := by rw [effect_frame]
@[simp] theorem effect_resetIn : (effect i s).resetIn = s.resetIn := by rw [effect_frame]
@[simp] theorem effect_draws : (effect i s).draws = s.draws := by rw [effect_frame]
@[simp] theorem effect_flashByte (a : Nat) : (effect i s).flashByte a = s.flashByte a := by
  simp only [State.flashByte, effect_flash]

end

/-- The state a list of operations leaves: `runAll_eq` ties it to `runAll`. -/
def runState (is : List Instr) (s : State) : State := is.foldl (fun s i => effect i s) s

@[simp] theorem runState_nil (s : State) : runState [] s = s := rfl

@[simp] theorem runState_cons (i : Instr) (is : List Instr) (s : State) :
    runState (i :: is) s = runState is (effect i s) := rfl

@[simp] theorem runState_append (is js : List Instr) (s : State) :
    runState (is ++ js) s = runState js (runState is s) := List.foldl_append

/-- Every list of operations completes (R190). -/
theorem runAll_eq (is : List Instr) (s : State) : runAll is s = .next (runState is s) := by
  induction is generalizing s with
  | nil => rfl
  | cons i is ih => rw [runAll, exec_eq_effect]; exact ih (effect i s)

@[simp] theorem outputs_nil (s : State) : outputs [] s = [] := rfl

@[simp] theorem outputs_cons (i : Instr) (is : List Instr) (s : State) :
    outputs (i :: is) s = (effect i s).out :: outputs is (effect i s) := by rw [outputs, exec_eq_effect]

@[simp] theorem takenBytes_nil (s : State) : takenBytes [] s = [] := rfl

@[simp] theorem takenBytes_cons (i : Instr) (is : List Instr) (s : State) :
    takenBytes (i :: is) s = takenByte i (effect i s).out ++ takenBytes is (effect i s) := by
  rw [takenBytes, exec_eq_effect]

@[simp] theorem acceptedBytes_nil (s : State) : acceptedBytes [] s = [] := rfl

@[simp] theorem acceptedBytes_cons (i : Instr) (is : List Instr) (s : State) :
    acceptedBytes (i :: is) s = acceptedByte i s ++ acceptedBytes is (effect i s) := by
  rw [acceptedBytes, exec_eq_effect]

end Sys2Proof.Machine
end

section
/-! SUPPORT. Updates of the state that no operation notices: of fields outside the parser, for a byte step, and of the outputs and
of the model's own fields, for every operation (spec/10_state.md R20, R26, R35). -/

namespace Sys2Proof.Machine

/-- The update `g` touches nothing that a byte step of the parser reads or writes. -/
structure ParserFree (g : State → State) : Prop where
  psState : ∀ s, (g s).psState = s.psState
  psPos : ∀ s, (g s).psPos = s.psPos
  psBuf : ∀ s, (g s).psBuf = s.psBuf
  openFrame : ∀ s d, (g s).openFrame d = g (s.openFrame d)
  storeByte : ∀ s d, (g s).storeByte d = g (s.storeByte d)
  closeFrame : ∀ s d, (g s).closeFrame d = g (s.closeFrame d)

/-- The update `g` touches nothing that an operation reads or writes, the outputs apart. -/
structure Unnoticed (g : State → State) : Prop extends ParserFree g where
  crcAcc : ∀ s, (g s).crcAcc = s.crcAcc
  rbMem : ∀ s, (g s).rbMem = s.rbMem
  rbHead : ∀ s, (g s).rbHead = s.rbHead
  rbTail : ∀ s, (g s).rbTail = s.rbTail
  flash : ∀ s, (g s).flash = s.flash
  cfg : ∀ s, (g s).cfg = s.cfg
  setCrc : ∀ s a, (g s).setCrc a = g (s.setCrc a)
  push : ∀ s d, ((g s).pushWrite d).pushAdvance = g (s.pushWrite d).pushAdvance
  popAdvance : ∀ s, (g s).popAdvance = g s.popAdvance
  respond : ∀ s q r, (g (s.respond q)).respond r = (g s).respond r

section
variable {g : State → State} (s : State) (d : Byte)

/-- A byte step before the update is the one after it (R140). -/
theorem ParserFree.feed (h : ParserFree g) : (g s).feed d = ((s.feed d).1, g (s.feed d).2) := by
  rcases feed_cases d s with ⟨hst, hd, e⟩ | ⟨hst, hd, e⟩ | ⟨hst, hp, e⟩ | ⟨hst, hp, e⟩ <;> rw [e]
  · exact feed_of_noise ((h.psState s).trans hst) hd
  · rw [feed_of_marker ((h.psState s).trans hst) hd, h.openFrame]
  · rw [feed_of_inside ((h.psState s).trans hst) (by rwa [h.psPos]), h.storeByte]
  · rw [feed_of_last ((h.psState s).trans hst) ((h.psPos s).trans hp), h.psBuf, h.closeFrame, closeFrame_psBuf]

namespace Unnoticed

theorem rbFull (h : Unnoticed g) : (g s).rbFull = s.rbFull := by rw [State.rbFull, h.rbHead, h.rbTail, State.rbFull]

theorem rbEmpty (h : Unnoticed g) : (g s).rbEmpty = s.rbEmpty := by rw [State.rbEmpty, h.rbHead, h.rbTail, State.rbEmpty]

theorem slot (h : Unnoticed g) (j : Byte) : (g s).slot j = s.slot j := by simp only [State.slot, h.rbMem]

theorem memRead4 (h : Unnoticed g) (a : Nat) : (g s).memRead4 a = s.memRead4 a := by
  simp only [State.memRead4, State.flashByte, h.flash]

/-- A push before the update is the one after it (R122). -/
theorem ringPush (h : Unnoticed g) : (g s).ringPush d = g (s.ringPush d) := by
  cases hfull : s.rbFull with
  | true => rw [ringPush_of_rbFull hfull, ringPush_of_rbFull ((h.rbFull s).trans hfull)]
  | false => rw [ringPush_of_not_rbFull hfull, ringPush_of_not_rbFull ((h.rbFull s).trans hfull), h.push]

/-- A pop before the update is the one after it (R123). -/
theorem ringPop (h : Unnoticed g) : (g s).ringPop = (s.ringPop.1, g s.ringPop.2) := by
  cases hempty : s.rbEmpty with
  | true => rw [ringPop_of_rbEmpty hempty, ringPop_of_rbEmpty ((h.rbEmpty s).trans hempty)]
  | false =>
    rw [ringPop_of_not_rbEmpty hempty, ringPop_of_not_rbEmpty ((h.rbEmpty s).trans hempty), h.rbTail, h.slot,
      h.popAdvance]

/-- A poll before the update is the one after it (R147). -/
theorem poll (h : Unnoticed g) : (g s).poll = (g s.poll).respond s.poll.out := by
  cases hempty : s.rbEmpty with
  | true => rw [poll_of_rbEmpty hempty, poll_of_rbEmpty ((h.rbEmpty s).trans hempty), h.respond, respond_out]
  | false =>
    rw [poll_of_not_rbEmpty hempty, poll_of_not_rbEmpty ((h.rbEmpty s).trans hempty), h.rbTail, h.slot, h.popAdvance,
      h.feed, h.respond, respond_out]

/-- An operation before the update is the one after it, with the operation's outputs (R20, R35). -/
theorem effect (h : Unnoticed g) (i : Instr) :
    effect i (g s) = (g (Machine.effect i s)).respond (Machine.effect i s).out := by
  cases i with
  | psPoll => exact h.poll s
  | _ =>
    simp only [Machine.effect, respond_out, h.respond, h.crcAcc, h.setCrc, h.ringPush, h.ringPop, h.feed, h.cfg,
      State.spWord, State.rvWord, h.memRead4]

end Unnoticed

end

/-- Advancing the tail is outside the parser (R26). -/
theorem parserFree_popAdvance : ParserFree State.popAdvance where
  psState _ := rfl
  psPos _ := rfl
  psBuf _ := rfl
  openFrame _ _ := rfl
  storeByte _ _ := rfl
  closeFrame _ _ := rfl

/-- A push's two writes are outside the parser (R26). -/
theorem parserFree_push (b : Byte) : ParserFree fun s => (s.pushWrite b).pushAdvance where
  psState _ := rfl
  psPos _ := rfl
  psBuf _ := rfl
  openFrame _ _ := rfl
  storeByte _ _ := rfl
  closeFrame _ _ := rfl

/-- No operation reads the outputs (R35). -/
theorem unnoticed_respond (r : Response) : Unnoticed (State.respond r) where
  psState _ := rfl
  psPos _ := rfl
  psBuf _ := rfl
  openFrame _ _ := rfl
  storeByte _ _ := rfl
  closeFrame _ _ := rfl
  crcAcc _ := rfl
  rbMem _ := rfl
  rbHead _ := rfl
  rbTail _ := rfl
  flash _ := rfl
  cfg _ := rfl
  setCrc _ _ := rfl
  push _ _ := rfl
  popAdvance _ := rfl
  respond _ _ _ := rfl

end Sys2Proof.Machine
end

section
/-! SUPPORT. Operations after other outputs (spec/10_state.md R35). -/

namespace Sys2Proof.Machine

variable (s : State) (r q : Response) (d : Byte)

@[simp] theorem respond_respond : (s.respond r).respond q = s.respond q := rfl

/-- A state's own outputs change nothing. -/
@[simp] theorem respond_out_self : s.respond s.out = s := rfl

variable {s r} in
/-- A state's own outputs change nothing, however they are named. -/
theorem respond_of_out_eq (h : s.out = r) : s.respond r = s := h ▸ rfl

@[simp] theorem respond_rbFull : (s.respond r).rbFull = s.rbFull := rfl

@[simp] theorem respond_rbEmpty : (s.respond r).rbEmpty = s.rbEmpty := rfl

@[simp] theorem respond_flashByte (a : Nat) : (s.respond r).flashByte a = s.flashByte a := rfl

/-- An operation's effect does not depend on the outputs before it (R35). -/
@[simp] theorem effect_respond (i : Instr) : effect i (s.respond r) = effect i s := (unnoticed_respond r).effect s i

/-- The outputs of a list of operations do not depend on the outputs before it (R35). -/
@[simp] theorem outputs_respond (is : List Instr) : outputs is (s.respond r) = outputs is s := by
  cases is <;> simp

/-- The state a list of operations leaves depends on the outputs before it at most in its own outputs (R35). -/
theorem runState_respond (is : List Instr) : (runState is (s.respond r)).respond q = (runState is s).respond q := by
  cases is <;> simp

end Sys2Proof.Machine
end

section
/-! PROOF. Every operation completes (spec/60_exceptions.md R190, R195). -/

namespace Sys2Proof.Machine

/-- Settles O49: each operation has its effect. -/
theorem everyOperationCompletes : Obligations.EveryOperationCompletes := fun i s => ⟨effect i s, exec_eq_effect i s⟩

end Sys2Proof.Machine
end

section
/-! SUPPORT. The byte step is linear and injective over GF(2), and so is CRC8 over lists of equal length
(spec/40_crc8.md R102, R109 to R111). -/

namespace Sys2Proof.Machine

/-- Shifting and XORing the polynomial in is linear (R102). -/
theorem crcShift_xor (a b : Byte) : crcShift (a ^^^ b) = crcShift a ^^^ crcShift b := by
  have hshift : (a ^^^ b) <<< 1 = a <<< 1 ^^^ b <<< 1 := BitVec.shiftLeft_xor_distrib a b 1
  have hcancel : a <<< 1 ^^^ Config.crcPoly ^^^ (b <<< 1 ^^^ Config.crcPoly) = a <<< 1 ^^^ b <<< 1 := by
    rw [BitVec.xor_comm (b <<< 1), ← BitVec.xor_assoc, BitVec.xor_assoc (a <<< 1), BitVec.xor_self, BitVec.xor_zero]
  rw [crcShift, crcShift, crcShift, hshift, BitVec.getElem_xor]
  cases a[7] <;> cases b[7]
  · rfl
  · exact BitVec.xor_assoc _ _ _
  · simp only [Bool.xor_false, if_true, Bool.false_eq_true, if_false]
    ac_rfl
  · exact hcancel.symm

/-- Any number of bit positions is linear (R102). -/
theorem crcShifts_xor (n : Nat) (a b : Byte) : crcShifts n (a ^^^ b) = crcShifts n a ^^^ crcShifts n b := by
  induction n generalizing a b with
  | zero => rfl
  | succ n ih => rw [crcShifts, crcShift_xor, ih, crcShifts, crcShifts]

/-- The byte step is linear in accumulator and byte together (R111). -/
theorem crcStep_xor (a b c d : Byte) : crcStep (a ^^^ b) (c ^^^ d) = crcStep a c ^^^ crcStep b d := by
  have hswap : a ^^^ b ^^^ (c ^^^ d) = a ^^^ c ^^^ (b ^^^ d) := by
    ac_rfl
  rw [crcStep, hswap, crcShifts_xor, crcStep, crcStep]

/-- A bit position loses nothing: only 0x00 goes to 0x00 (R111). -/
theorem crcShift_eq_zero : ∀ a : Byte, crcShift a = 0x00 ↔ a = 0x00 := by decide

/-- Any number of bit positions loses nothing (R111). -/
theorem crcShifts_eq_zero (n : Nat) (a : Byte) : crcShifts n a = 0x00 ↔ a = 0x00 := by
  induction n generalizing a with
  | zero => rfl
  | succ n ih => rw [crcShifts, ih, crcShift_eq_zero]

/-- The byte step gives 0x00 exactly when the byte is the accumulator (R109, R111). -/
theorem crcStep_eq_zero (acc b : Byte) : crcStep acc b = 0x00 ↔ acc = b := by
  rw [crcStep, crcShifts_eq_zero]
  exact BitVec.xor_eq_zero_iff

/-- The byte step from 0x00 is injective: equal results cancel (R111). -/
theorem crcStep_zero_injective : Function.Injective (crcStep 0x00) := by
  intro a b h
  have hsum : crcStep (0x00 ^^^ 0x00) (a ^^^ b) = 0x00 := by
    rw [crcStep_xor, h]
    exact BitVec.xor_self
  exact BitVec.xor_eq_zero_iff.mp ((crcStep_eq_zero _ _).mp hsum).symm

/-- Folding two lists of equal length together is folding each by itself (R111). -/
theorem foldl_crcStep_xor (s t : List Byte) (h : s.length = t.length) (a b : Byte) :
    (List.zipWith (· ^^^ ·) s t).foldl crcStep (a ^^^ b) = s.foldl crcStep a ^^^ t.foldl crcStep b := by
  induction s generalizing t a b with
  | nil => cases t <;> simp_all
  | cons x s ih =>
    cases t with
    | nil => simp at h
    | cons y t =>
      simp only [List.zipWith_cons_cons, List.foldl_cons, crcStep_xor]
      exact ih t (by simpa using h) _ _

/-- CRC8 is linear over lists of equal length (R111). -/
theorem crc8_zipWith_xor (s t : List Byte) (h : s.length = t.length) :
    crc8 (List.zipWith (· ^^^ ·) s t) = crc8 s ^^^ crc8 t :=
  foldl_crcStep_xor s t h 0x00 0x00

/-- Zeros leave an accumulator of 0x00 (R110). -/
@[simp] theorem crc8_replicate_zero (k : Nat) : crc8 (List.replicate k 0x00) = 0x00 := by
  induction k with
  | zero => rfl
  | succ k ih => rw [List.replicate_succ', crc8_snoc, ih, crcStep_self]

/-- Zeros fed last give 0x00 exactly from 0x00 (R111). -/
theorem foldl_crcStep_replicate_zero (k : Nat) (a : Byte) :
    (List.replicate k 0x00).foldl crcStep a = 0x00 ↔ a = 0x00 := by
  induction k generalizing a with
  | zero => rfl
  | succ k ih => rw [List.replicate_succ, List.foldl_cons, ih, crcStep_eq_zero]

/-- A list with one byte other than 0x00 has a CRC other than 0x00 (R111). -/
theorem crc8_single_ne_zero (j k : Nat) {e : Byte} (he : e ≠ 0x00) :
    crc8 (List.replicate j 0x00 ++ e :: List.replicate k 0x00) ≠ 0x00 := by
  rw [crc8_append, crc8_replicate_zero, List.foldl_cons, ne_eq, foldl_crcStep_replicate_zero, crcStep_eq_zero]
  exact he.symm

/-- A frame is its body and its CRC byte (R75). -/
theorem toList_eq_frameBody_append (f : Frame) : f.toList = frameBody f ++ [frameCrc f] := by
  have hlen : f.toList.length = 64 := f.length_toList
  have hdrop : f.toList.drop 63 = [frameCrc f] := by
    rw [List.drop_eq_getElem_cons (by omega), List.drop_of_length_le (by omega)]
    simp [frameCrc]
  rw [frameBody, ← hdrop, List.take_append_drop]

/-- The equivalent test for a CRC-valid frame (R78, R109). -/
theorem frameCrc_eq_iff (f : Frame) : frameCrc f = crc8 (frameBody f) ↔ crc8 f.toList = 0x00 := by
  rw [toList_eq_frameBody_append, crc8_snoc, crcStep_eq_zero, eq_comm]

/-- A frame is CRC-valid exactly when the CRC of its 64 bytes is 0x00 (R78, R109). -/
theorem crcValid_iff (f : Frame) : crcValid f = true ↔ crc8 f.toList = 0x00 := by
  rw [crcValid, beq_iff_eq, frameCrc_eq_iff]

/-- The bytewise XOR of two frames (R111). -/
def frameXor (f e : Frame) : Frame := Vector.ofFn fun i => f[i] ^^^ e[i]

/-- The bytes of a XOR of frames (R111). -/
theorem frameXor_toList (f e : Frame) : (frameXor f e).toList = List.zipWith (· ^^^ ·) f.toList e.toList := by
  apply List.ext_getElem
  · simp
  · intro i h _
    simp [frameXor]

/-- The error pattern with the one byte `e` at index `i` (R111). -/
def onePattern (i : Nat) (h : i < 64) (e : Byte) : Frame := (Vector.replicate 64 0x00).set i e

/-- The bytes of a one-byte error pattern (R111). -/
theorem onePattern_toList (i : Nat) (h : i < 64) (e : Byte) :
    (onePattern i h e).toList = List.replicate i 0x00 ++ e :: List.replicate (63 - i) 0x00 := by
  apply List.ext_getElem
  · simp; omega
  · intro j hj _
    simp [onePattern, Vector.getElem_set, List.getElem_append, List.getElem_cons]
    grind

/-- Corrupting one byte is XORing a one-byte pattern in (R111). -/
theorem set_xor_eq_frameXor (f : Frame) (i : Nat) (h : i < 64) (e : Byte) :
    f.set i (f[i] ^^^ e) = frameXor f (onePattern i h e) := by
  apply Vector.ext
  intro j hj
  by_cases hij : i = j <;> simp [frameXor, onePattern, Vector.getElem_set, hij]

/-- An error pattern goes undetected exactly when its own CRC is 0x00 (R111). -/
theorem crcValid_frameXor {f : Frame} (h : crcValid f = true) (e : Frame) :
    crcValid (frameXor f e) = true ↔ crc8 e.toList = 0x00 := by
  rw [crcValid_iff, frameXor_toList, crc8_zipWith_xor _ _ (by simp), (crcValid_iff f).mp h]
  exact Eq.congr_left BitVec.zero_xor

end Sys2Proof.Machine
end

section
/-! PROOF. The laws of CRC8 (spec/40_crc8.md R109 to R111). -/

namespace Sys2Proof.Machine

/-- Settles O22: linearity of the byte step carries over to lists and frames, and its injectivity detects a one-byte error. -/
theorem crcIsLinearAndDetectsEveryOneByteError : Obligations.CrcIsLinearAndDetectsEveryOneByteError := by
  refine ⟨fun a b => ?_, fun a => ?_, ?_, crc8_zipWith_xor, fun f e hf => crcValid_frameXor hf e, ?_⟩
  · exact crcStep_xor 0x00 0x00 a b
  · rw [crcStep_eq_zero, eq_comm]
  · exact Finite.injective_iff_bijective.mp crcStep_zero_injective
  · intro f i h e hf he
    rw [set_xor_eq_frameXor, ← Bool.not_eq_true, crcValid_frameXor hf, onePattern_toList]
    exact crc8_single_ne_zero i (63 - i) he

/-- Settles O20: the last step of a list and its CRC is a byte step of equal bytes, which alone give 0x00. -/
theorem residueOfAListWithItsCrcIsZero : Obligations.ResidueOfAListWithItsCrcIsZero := by
  refine ⟨fun s => ⟨?_, crcStep_self (crc8 s)⟩, frameCrc_eq_iff⟩
  rw [crc8_snoc, crcStep_self]

/-- Settles O21: zeros leave the accumulator at 0x00, where the rest of the list starts. -/
theorem leadingZerosLeaveTheCrc : Obligations.LeadingZerosLeaveTheCrc := by
  refine ⟨fun k s => ?_, crc8_replicate_zero, by decide, by decide⟩
  rw [crc8_append, crc8_replicate_zero]
  rfl

end Sys2Proof.Machine
end

section
/-! PROOF. CRC8 as a polynomial remainder over GF(2) (spec/40_crc8.md R100): in the quotient by the generator, a bit position of
the byte step is multiplication by `X`. -/

namespace Sys2Proof.Machine

open Polynomial

/-- The polynomial of a byte, bit `k` the coefficient of `X ^ k` (R100). -/
noncomputable def bytePoly (b : Byte) : (ZMod 2)[X] := ∑ k ∈ Finset.range 8, if b.getLsbD k then X ^ k else 0

/-- The polynomial of a byte list, the first byte the highest (R100). -/
noncomputable def messagePoly (s : List Byte) : (ZMod 2)[X] := s.foldl (fun m b => m * X ^ 8 + bytePoly b) 0

/-- The generator x^8+x^2+x+1 (R6, R100). -/
noncomputable def generator : (ZMod 2)[X] := X ^ 8 + X ^ 2 + X + 1

theorem generator_degree : generator.degree = 8 := by
  unfold generator
  compute_degree!

theorem generator_monic : generator.Monic := by
  unfold generator
  monicity!

/-- XOR of bytes is addition of their polynomials (R100). -/
theorem bytePoly_xor (a b : Byte) : bytePoly (a ^^^ b) = bytePoly a + bytePoly b := by
  rw [bytePoly, bytePoly, bytePoly, ← Finset.sum_add_distrib]
  refine Finset.sum_congr rfl fun k _ => ?_
  rw [BitVec.getLsbD_xor]
  cases a.getLsbD k <;> cases b.getLsbD k <;> simp [CharTwo.add_self_eq_zero]

/-- A byte's polynomial is its own remainder (R100). -/
theorem bytePoly_degree_lt (b : Byte) : (bytePoly b).degree < generator.degree := by
  rw [generator_degree]
  refine lt_of_le_of_lt (degree_sum_le _ _) ((Finset.sup_lt_iff (by decide)).mpr fun k hk => ?_)
  rw [Finset.mem_range] at hk
  split
  · rw [degree_X_pow]; exact_mod_cast hk
  · rw [degree_zero]; decide

/-- The polynomial of CRC_POLY is the generator without its leading term (R6). -/
theorem bytePoly_crcPoly : bytePoly Config.crcPoly = X ^ 2 + X + 1 := by
  have hbits : ∀ k ∈ Finset.range 8, Config.crcPoly.getLsbD k = decide (k < 3) := by decide
  rw [bytePoly, Finset.sum_congr rfl fun k hk => by rw [hbits k hk]]
  calc ∑ k ∈ Finset.range 8, (if decide (k < 3) = true then (X : (ZMod 2)[X]) ^ k else 0)
    _ = 1 + X + X ^ 2 := by simp [Finset.sum_range_succ]
    _ = X ^ 2 + X + 1 := by ring

/-- Shifting a byte left multiplies by `X` and loses the top bit (R100). -/
theorem bytePoly_shiftLeft (a : Byte) :
    X * bytePoly a = bytePoly (a <<< 1) + if a[7] then X ^ 8 else 0 := by
  have hbit : ∀ k < 7, (a <<< 1).getLsbD (k + 1) = a.getLsbD k := by
    intro k hk
    simp [BitVec.getLsbD_shiftLeft]
    omega
  have hlow : (a <<< 1).getLsbD 0 = false := by simp
  rw [bytePoly, bytePoly, Finset.sum_range_succ, Finset.sum_range_succ' _ 7, hlow, mul_add, Finset.mul_sum]
  have hsum : ∑ k ∈ Finset.range 7, (X : (ZMod 2)[X]) * (if a.getLsbD k then X ^ k else 0) =
      ∑ k ∈ Finset.range 7, if (a <<< 1).getLsbD (k + 1) then (X : (ZMod 2)[X]) ^ (k + 1) else 0 := by
    refine Finset.sum_congr rfl fun k hk => ?_
    rw [hbit k (Finset.mem_range.mp hk)]
    split
    · rw [pow_succ']
    · rw [mul_zero]
  rw [hsum, BitVec.getLsbD_eq_getElem (by decide : 7 < 8)]
  split <;> simp [← pow_succ']

/-- A bit position of the byte step is multiplication by `X` modulo the generator (R100, R102). -/
theorem mk_bytePoly_crcShift (a : Byte) :
    AdjoinRoot.mk generator (bytePoly (crcShift a)) = AdjoinRoot.mk generator (X * bytePoly a) := by
  rw [AdjoinRoot.mk_eq_mk, bytePoly_shiftLeft, crcShift]
  split
  · have htwo : (X : (ZMod 2)[X]) ^ 8 + X ^ 8 = 0 := CharTwo.add_self_eq_zero _
    refine ⟨1, ?_⟩
    rw [bytePoly_xor, bytePoly_crcPoly, generator]
    linear_combination -htwo
  · simp

/-- `n` bit positions are multiplication by `X ^ n` modulo the generator (R100, R102). -/
theorem mk_bytePoly_crcShifts (n : Nat) (a : Byte) :
    AdjoinRoot.mk generator (bytePoly (crcShifts n a)) = AdjoinRoot.mk generator (X ^ n * bytePoly a) := by
  induction n generalizing a with
  | zero => rw [crcShifts, pow_zero, one_mul]
  | succ n ih => rw [crcShifts, ih, map_mul, mk_bytePoly_crcShift, ← map_mul, ← mul_assoc, ← pow_succ]

/-- The byte step adds its byte and multiplies by `X ^ 8` modulo the generator (R100, R102). -/
theorem mk_bytePoly_crcStep (acc b : Byte) :
    AdjoinRoot.mk generator (bytePoly (crcStep acc b)) =
      AdjoinRoot.mk generator ((bytePoly acc + bytePoly b) * X ^ 8) := by
  rw [crcStep, mk_bytePoly_crcShifts, bytePoly_xor, mul_comm]

/-- One more byte (R100). -/
theorem messagePoly_snoc (s : List Byte) (b : Byte) :
    messagePoly (s ++ [b]) = messagePoly s * X ^ 8 + bytePoly b := by
  simp [messagePoly]

/-- CRC8 and the message times `X ^ 8` agree modulo the generator (R100). -/
theorem mk_bytePoly_crc8 (s : List Byte) :
    AdjoinRoot.mk generator (messagePoly s * X ^ 8) = AdjoinRoot.mk generator (bytePoly (crc8 s)) := by
  induction s using List.reverseRecOn with
  | nil => simp [messagePoly, bytePoly]
  | append_singleton s b ih =>
    rw [crc8_snoc, mk_bytePoly_crcStep, messagePoly_snoc, map_mul, map_add, ih, ← map_add, ← map_mul]

/-- Settles O19: both are congruent modulo the generator, and a byte's degree is below the generator's. -/
theorem crcIsThePolynomialRemainder : Obligations.CrcIsThePolynomialRemainder := by
  intro s
  change (messagePoly s * X ^ 8) %ₘ generator = bytePoly (crc8 s)
  have hdvd : generator ∣ messagePoly s * X ^ 8 - bytePoly (crc8 s) := AdjoinRoot.mk_eq_mk.mp (mk_bytePoly_crc8 s)
  rw [modByMonic_eq_of_dvd_sub generator_monic hdvd, modByMonic_eq_self_iff generator_monic]
  exact bytePoly_degree_lt (crc8 s)

end Sys2Proof.Machine
end

section
/-! SUPPORT. The CRC generator's operations in any sequence (spec/40_crc8.md R104 to R108). -/

namespace Sys2Proof.Machine

/-- CRC_UPDATEs of a list fold the byte step over it (R105). -/
theorem runState_crcUpdates (bs : List Byte) (s : State) :
    (runState (bs.map Instr.crcUpdate) s).respond quiet = (s.setCrc (bs.foldl crcStep s.crcAcc)).respond quiet := by
  induction bs generalizing s with
  | nil => rfl
  | cons b bs ih => exact ih _

end Sys2Proof.Machine
end

section
/-! PROOF. The CRC generator's operations (spec/40_crc8.md R104 to R108). -/

namespace Sys2Proof.Machine

/-- Settles O23: the updates fold the byte step over the list from 0x00, and the read gives what they leave. -/
theorem streamedCrcIsTheComputedCrc : Obligations.StreamedCrcIsTheComputedCrc := by
  intro bs s
  refine ⟨?_, _, runAll_eq _ s, rfl, rfl⟩
  have hupdates := runState_crcUpdates bs (effect .crcInit s)
  have hread : effect .crcRead (runState (bs.map Instr.crcUpdate) (effect .crcInit s)) = effect (.crcCompute bs) s := by
    rw [← effect_respond _ quiet, hupdates]
    rfl
  simp only [runAll_eq, runState_cons, runState_append, runState_nil, hread]

/-- Settles O14: the effect is the model's, and the request decodes by its selector and `DATA`. -/
theorem crcInitClearsTheAccumulator : Obligations.CrcInitClearsTheAccumulator := by
  refine ⟨fun s => exec_eq_effect .crcInit s, by decide, by decide, rfl, fun a d hd => ?_⟩
  rw [decode_eq_error_of_ne (by decide), decodeWord_eq_reservedData, requestOf_op, requestOf_data]
  exact ⟨by decide, hd⟩

/-- Settles O16: the effect is the model's; after CRC_INIT or reset the accumulator read is 0x00. -/
theorem crcReadGivesTheAccumulator : Obligations.CrcReadGivesTheAccumulator := by
  refine ⟨fun s => exec_eq_effect .crcRead s, by decide, by decide, fun s => ?_, ?_⟩
  · exact ⟨_, runAll_eq _ s, rfl⟩
  · exact ⟨_, exec_eq_effect .crcRead State.reset, rfl⟩

set_option maxRecDepth 40000 in
/-- The check value of the ASCII digits 1 to 9 (R101). -/
theorem crc8_digits : crc8 [0x31, 0x32, 0x33, 0x34, 0x35, 0x36, 0x37, 0x38, 0x39] = 0xF4 := by decide

/-- Settles O17: the effect is the model's, and selector 0x04 takes `SEQ` alone. -/
theorem crcComputeGivesTheCrcOfTheList : Obligations.CrcComputeGivesTheCrcOfTheList := by
  refine ⟨fun seq s => exec_eq_effect (.crcCompute seq) s, fun seq sp rv force => ?_, rfl, crc8_digits⟩
  have hword : decodeWord ⟨0x0400, seq, sp, rv, force⟩ = .ok (.crcCompute seq) := by
    simp [decodeWord, Request.op, Request.data, Request.withoutData]
  exact ⟨decode_of_decodeWord hword .consumer, decode_of_decodeWord hword .producer⟩

/-- Settles O24: no operation writes flash, configuration or the model's fields, and the generator's write no other unit's. -/
theorem crcOperationsFrame : Obligations.CrcOperationsFrame := by
  intro i s t hunit h
  obtain rfl := exec_eq_next_iff.mp h
  simp only [effect_flashByte, effect_cfg, effect_producer, effect_consumer, effect_order, effect_resetIn, effect_draws,
    implies_true, true_and]
  cases i with
  | crcInit | crcUpdate d | crcRead | crcCompute seq => simp [effect]
  | _ => simp [Instr.blockUnit] at hunit

end Sys2Proof.Machine
end

section
/-! SUPPORT. The ring as the list of bytes it holds: what a push and a pop do to the list (spec/10_state.md R32 to R34, R41;
spec/41_ring_fifo.md R122, R123). -/

namespace Sys2Proof.Machine

/-- `RB_EMPTY` in plain words (R32). -/
theorem rbEmpty_iff (s : State) : s.rbEmpty = true ↔ s.rbHead = s.rbTail := beq_iff_eq

/-- The ring is empty exactly when it holds no byte (R32, R34). -/
theorem rbEmpty_iff_rbCount (s : State) : s.rbEmpty = true ↔ s.rbCount = 0 := by
  rw [rbEmpty_iff, ← BitVec.toNat_inj, rbCount_eq]
  have hh := s.rbHead.isLt
  have ht := s.rbTail.isLt
  omega

/-- The ring never holds more than 255 bytes (R34). -/
theorem rbCount_le (s : State) : s.rbCount ≤ 255 := by
  rw [rbCount_eq]
  omega

/-- `RB_COUNT` is the number of bytes held (R34, R41). -/
@[simp] theorem ringContents_length (s : State) : (ringContents s).length = s.rbCount := by
  simp [ringContents]

/-- The ring is full exactly when the list has 255 bytes (R33, R41). -/
theorem rbFull_iff_length (s : State) : s.rbFull = true ↔ (ringContents s).length = 255 := by
  rw [rbFull_iff_rbCount, ringContents_length]

/-- The ring is empty exactly when the list is (R32, R41). -/
theorem rbEmpty_iff_ringContents (s : State) : s.rbEmpty = true ↔ ringContents s = [] := by
  rw [rbEmpty_iff_rbCount, ← ringContents_length, List.length_eq_zero_iff]

section
variable (s : State)

/-- The slot after the last byte held is the one at the head (R24, R41). -/
theorem rbTail_add_rbCount : s.rbTail + BitVec.ofNat 8 s.rbCount = s.rbHead := by
  rw [State.rbCount, BitVec.ofNat_toNat, BitVec.setWidth_eq, BitVec.add_comm, BitVec.sub_add_cancel]

/-- The slots of the bytes held are not the one at the head (R41). -/
theorem rbTail_add_ne_rbHead {k : Nat} (hk : k < s.rbCount) : s.rbTail + BitVec.ofNat 8 k ≠ s.rbHead := by
  intro h
  rw [← rbTail_add_rbCount s, BitVec.add_right_inj, ← BitVec.toNat_inj, BitVec.toNat_ofNat, BitVec.toNat_ofNat] at h
  have := rbCount_le s
  omega

/-- A push that is not dropped adds one to the count (R34, R122). -/
theorem rbCount_pushAdvance (d : Byte) (h : s.rbFull = false) :
    (s.pushWrite d).pushAdvance.rbCount = s.rbCount + 1 := by
  rw [← Bool.not_eq_true, rbFull_iff_rbCount] at h
  simp only [rbCount_eq, pushAdvance_rbHead, pushAdvance_rbTail, pushWrite_rbHead, pushWrite_rbTail, nextIndex_toNat]
    at h ⊢
  have hh := s.rbHead.isLt
  have ht := s.rbTail.isLt
  omega

/-- A pop that answers a byte takes one from the count (R34, R123). -/
theorem rbCount_popAdvance (h : s.rbEmpty = false) : s.rbCount = s.popAdvance.rbCount + 1 := by
  rw [← Bool.not_eq_true, rbEmpty_iff_rbCount] at h
  simp only [rbCount_eq, popAdvance_rbHead, popAdvance_rbTail, nextIndex_toNat] at h ⊢
  have hh := s.rbHead.isLt
  have ht := s.rbTail.isLt
  omega

/-- A push that is not dropped appends its byte (R122). -/
theorem ringContents_pushAdvance (d : Byte) (h : s.rbFull = false) :
    ringContents (s.pushWrite d).pushAdvance = ringContents s ++ [d] := by
  have hheld : ∀ k ∈ List.range s.rbCount,
      (s.pushWrite d).slot (s.rbTail + BitVec.ofNat 8 k) = s.slot (s.rbTail + BitVec.ofNat 8 k) := fun k hk =>
    pushWrite_slot_of_ne s d (rbTail_add_ne_rbHead s (List.mem_range.mp hk))
  rw [ringContents, rbCount_pushAdvance s d h, List.range_succ, List.map_append]
  simp only [pushAdvance_slot, pushAdvance_rbTail, pushWrite_rbTail, List.map_singleton, rbTail_add_rbCount,
    pushWrite_slot_rbHead, List.map_congr_left hheld, ringContents]

/-- A pop that answers gives the head of the list and leaves its tail (R123). -/
theorem ringContents_eq_cons (h : s.rbEmpty = false) :
    ringContents s = s.slot s.rbTail :: ringContents s.popAdvance := by
  have hnext : ∀ k, s.slot (s.rbTail + BitVec.ofNat 8 (k + 1)) =
      s.popAdvance.slot (s.popAdvance.rbTail + BitVec.ofNat 8 k) := by
    intro k
    rw [popAdvance_rbTail, nextIndex, BitVec.add_assoc, BitVec.ofNat_add, BitVec.add_comm 1]
    rfl
  rw [ringContents, rbCount_popAdvance s h, List.range_succ_eq_map, List.map_cons, List.map_map, BitVec.add_zero]
  exact congrArg _ (List.map_congr_left fun k _ => hnext k)

/-- What a push does to the list of bytes held (R122, R125). -/
theorem ringContents_ringPush (d : Byte) : ringContents (s.ringPush d) =
    if (ringContents s).length = 255 then ringContents s else ringContents s ++ [d] := by
  cases h : s.rbFull with
  | true => rw [ringPush_of_rbFull h, if_pos ((rbFull_iff_length s).mp h)]
  | false =>
    have hlen : (ringContents s).length ≠ 255 := mt (rbFull_iff_length s).mpr (by simp [h])
    rw [ringPush_of_not_rbFull h, ringContents_pushAdvance s d h, if_neg hlen]

/-- A pop answers the oldest byte held (R123). -/
theorem ringPop_fst : s.ringPop.1 = (ringContents s).head? := by
  cases h : s.rbEmpty with
  | true => rw [ringPop_of_rbEmpty h, (rbEmpty_iff_ringContents s).mp h, List.head?_nil]
  | false => rw [ringPop_of_not_rbEmpty h, ringContents_eq_cons s h, List.head?_cons]

/-- A pop leaves all bytes held but the oldest (R123). -/
theorem ringContents_ringPop : ringContents s.ringPop.2 = (ringContents s).tail := by
  cases h : s.rbEmpty with
  | true =>
    rw [ringPop_of_rbEmpty h, (rbEmpty_iff_ringContents s).mp h, List.tail_nil]
  | false => rw [ringPop_of_not_rbEmpty h, ringContents_eq_cons s h, List.tail_cons]

/-- A byte step of the parser leaves the bytes held (R140). -/
@[simp] theorem ringContents_feed (d : Byte) : ringContents (s.feed d).2 = ringContents s := by
  rw [feed_frame]
  rfl

/-- A poll takes a byte from the ring as a pop does (R147). -/
theorem ringContents_poll : ringContents s.poll = (ringContents s).tail := by
  rw [← ringContents_ringPop]
  cases h : s.rbEmpty with
  | true => rw [poll_of_rbEmpty h, ringPop_of_rbEmpty h, ringContents_respond]
  | false => rw [poll_of_not_rbEmpty h, ringPop_of_not_rbEmpty h, ringContents_respond, ringContents_feed]

/-- A poll answers on `DOUT` what a pop would (R147). -/
theorem poll_dout : s.poll.out.dout = (ringContents s).head? := by
  rw [← ringPop_fst]
  cases h : s.rbEmpty with
  | true => rw [poll_of_rbEmpty h, ringPop_of_rbEmpty h]; rfl
  | false => rw [poll_of_not_rbEmpty h, ringPop_of_not_rbEmpty h]; rfl

end

section
variable {s : State}

/-- A push that is not dropped leaves a byte to pop (R122). -/
theorem ringPush_rbEmpty (h : s.rbFull = false) (d : Byte) : (s.ringPush d).rbEmpty = false := by
  rw [ringPush_of_not_rbFull h, ← Bool.not_eq_true, rbEmpty_iff_rbCount, rbCount_pushAdvance s d h]
  omega

/-- A push leaves a ring that holds a byte so (R122). -/
theorem ringPush_rbEmpty_of_not_rbEmpty (h : s.rbEmpty = false) (d : Byte) : (s.ringPush d).rbEmpty = false := by
  cases hfull : s.rbFull with
  | true => rwa [ringPush_of_rbFull hfull]
  | false => exact ringPush_rbEmpty hfull d

/-- A pop that answers a byte leaves room (R123). -/
theorem popAdvance_rbFull (h : s.rbEmpty = false) : s.popAdvance.rbFull = false := by
  have hcount := rbCount_popAdvance s h
  have := rbCount_le s
  rw [← Bool.not_eq_true, rbFull_iff_rbCount]
  omega

/-- On a ring that holds a byte, a push's slot is not the one a pop reads (R57). -/
theorem pushWrite_slot_rbTail (h : s.rbEmpty = false) (d : Byte) :
    (s.pushWrite d).slot s.rbTail = s.slot s.rbTail := by
  refine pushWrite_slot_of_ne s d fun heq => ?_
  rw [(rbEmpty_iff s).mpr heq.symm] at h
  contradiction

/-- On a ring that holds a byte, a push leaves the oldest (R122). -/
theorem ringPush_slot_rbTail (h : s.rbEmpty = false) (d : Byte) :
    (s.ringPush d).slot (s.ringPush d).rbTail = s.slot s.rbTail := by
  cases hfull : s.rbFull with
  | true => rw [ringPush_of_rbFull hfull]
  | false => rw [ringPush_of_not_rbFull hfull]; exact pushWrite_slot_rbTail h d

/-- On a ring that holds a byte, a pop after a push answers what it answers before the push (R57). -/
theorem ringPush_ringPop (h : s.rbEmpty = false) (d : Byte) :
    (s.ringPush d).ringPop = (some (s.slot s.rbTail), (s.ringPush d).popAdvance) := by
  rw [ringPop_of_not_rbEmpty (ringPush_rbEmpty_of_not_rbEmpty h d), ringPush_slot_rbTail h d]

/-- On a ring that is not full, a push after a pop is its slot write before the pop and its head advance after it (R57). -/
theorem ringPop_ringPush (h : s.rbFull = false) (d : Byte) :
    (s.pushWrite d).ringPop.1 = s.ringPop.1 ∧ (s.pushWrite d).ringPop.2.pushAdvance = s.ringPop.2.ringPush d := by
  cases hempty : s.rbEmpty with
  | true =>
    rw [ringPop_of_rbEmpty (s := s.pushWrite d) hempty, ringPop_of_rbEmpty hempty, ringPush_of_not_rbFull h]
    exact ⟨rfl, rfl⟩
  | false =>
    rw [ringPop_of_not_rbEmpty (s := s.pushWrite d) hempty, ringPop_of_not_rbEmpty hempty,
      ringPush_of_not_rbFull (popAdvance_rbFull hempty)]
    exact ⟨congrArg some (pushWrite_slot_rbTail hempty d), rfl⟩

/-- On a ring neither full nor empty a push and a pop's advance commute (R63). -/
theorem ringPush_popAdvance (hfull : s.rbFull = false) (hempty : s.rbEmpty = false) (d : Byte) :
    (s.ringPush d).popAdvance = s.popAdvance.ringPush d := by
  rw [ringPush_of_not_rbFull hfull, ringPush_of_not_rbFull (popAdvance_rbFull hempty)]
  rfl

/-- On a ring neither full nor empty a push and a pop commute (R63). -/
theorem ringPush_ringPop_comm (hfull : s.rbFull = false) (hempty : s.rbEmpty = false) (d : Byte) :
    (s.ringPush d).ringPop = (s.ringPop.1, s.ringPop.2.ringPush d) := by
  rw [ringPush_ringPop hempty, ringPop_of_not_rbEmpty hempty, ringPush_popAdvance hfull hempty]

end

/-- The outputs of a pop: `DOUT` is its answer (R123). -/
@[simp] theorem popOut_dout (b : Option Byte) : (popOut b).dout = b := by cases b <;> rfl

/-- The outputs of a pop: `VALID` says whether there is a byte (R123). -/
@[simp] theorem popOut_valid (b : Option Byte) : (popOut b).valid = some b.isSome := by cases b <;> rfl

/-- One operation takes from the front of the queue and appends at its end (R124). -/
theorem takenByte_append_ringContents (i : Instr) (s : State) :
    takenByte i (effect i s).out ++ ringContents (effect i s) = ringContents s ++ acceptedByte i s := by
  cases i with
  | rbPush d =>
    simp only [effect, takenByte, ringContents_respond, ringContents_ringPush, ← rbFull_iff_length, acceptedByte,
      List.nil_append]
    split <;> simp
  | rbPop =>
    simp only [effect, takenByte, respond_out, popOut_dout, ringPop_fst, ringContents_respond, ringContents_ringPop,
      acceptedByte, List.append_nil]
    cases ringContents s <;> rfl
  | psPoll =>
    simp only [effect, takenByte, poll_dout, ringContents_poll, acceptedByte, List.append_nil]
    cases ringContents s <;> rfl
  | psFeed d => simp [effect, takenByte, acceptedByte]
  | _ => exact (List.append_nil _).symm

/-- Pushes on a ring fill it up to 255 bytes (R127). -/
theorem ringContents_rbPushes (ds : List Byte) (s : State) :
    ringContents (runState (ds.map Instr.rbPush) s) = (ringContents s ++ ds).take 255 := by
  induction ds generalizing s with
  | nil => simp [rbCount_le]
  | cons d ds ih =>
    rw [List.map_cons, runState_cons, ih, effect, ringContents_respond, ringContents_ringPush]
    split
    · next h => rw [← h, List.take_left, List.take_left]
    · rw [List.append_assoc, List.singleton_append]

end Sys2Proof.Machine
end

section
/-! PROOF. The ring as a queue of at most 255 bytes (spec/41_ring_fifo.md R123 to R127; spec/10_state.md R32 to R34). -/

namespace Sys2Proof.Machine

/-- Settles O25: the predicates in plain numbers. -/
theorem ringPredicatesCountTheBytesHeld : Obligations.RingPredicatesCountTheBytesHeld := fun s =>
  ⟨rbEmpty_iff s, rbFull_iff s, rbCount_eq s, (ringContents_length s).symm, rbCount_le s, rbEmpty_iff_rbCount s,
    rbFull_iff_rbCount s⟩

/-- Settles O28: the list of bytes held after a push and after a pop. -/
theorem ringIsABoundedQueue : Obligations.RingIsABoundedQueue := by
  intro s d
  refine ⟨⟨_, exec_rbPush s d, ?_⟩, _, exec_rbPop s, ?_, ?_, ?_⟩
  · rw [ringContents_respond, ringContents_ringPush]
  · rw [respond_out, popOut_dout, ringPop_fst]
  · rw [respond_out, popOut_valid, ringPop_fst]
    cases ringContents s <;> rfl
  · rw [ringContents_respond, ringContents_ringPop]

/-- Settles O29: by induction over the operations, each of which moves the queue along by what it takes and accepts. -/
theorem takenBytesAreTheAcceptedBytesInOrder : Obligations.TakenBytesAreTheAcceptedBytesInOrder := by
  intro is s
  refine ⟨_, runAll_eq is s, ?_⟩
  induction is generalizing s with
  | nil => simp
  | cons i is ih =>
    rw [takenBytes_cons, acceptedBytes_cons, runState_cons, List.append_assoc, ih, ← List.append_assoc,
      takenByte_append_ringContents, List.append_assoc]

/-- Settles O31: an empty ring holds the empty list. -/
theorem emptyRingAcceptsTheFirst255Pushes : Obligations.EmptyRingAcceptsTheFirst255Pushes := by
  refine ⟨fun ds s h => ⟨_, runAll_eq _ s, ?_⟩, fun s => ?_⟩
  · rw [ringContents_rbPushes, (rbEmpty_iff_ringContents s).mp h, List.nil_append]
  · rw [ringContents_length]
    exact rbCount_le s

/-- Settles O27: the two cases of RB_POP by the empty ring, and the decoding by the request's owner. -/
theorem rbPopGivesTheOldestByte : Obligations.RbPopGivesTheOldestByte := by
  refine ⟨fun s => ⟨fun h => ?_, fun h => ?_⟩, by decide, by decide⟩
  · exact exec_rbPop_of_rbEmpty ((rbEmpty_iff s).mpr h)
  · have hempty : s.rbEmpty = false := by rw [← Bool.not_eq_true, rbEmpty_iff]; exact h
    have hexec : exec .rbPop s = .next (s.popAdvance.respond (popOut (some (s.slot s.rbTail)))) := by
      rw [exec_rbPop, ringPop_of_not_rbEmpty hempty]
    exact ⟨_, hexec, nextIndex_toNat s.rbTail, rfl⟩

/-- A push leaves every slot but the one at the head (R122). -/
theorem ringPush_slot_of_ne (s : State) (d : Byte) {j : Byte} (hj : j ≠ s.rbHead) : (s.ringPush d).slot j = s.slot j := by
  cases h : s.rbFull with
  | true => rw [ringPush_of_rbFull h]
  | false => rw [ringPush_of_not_rbFull h, pushAdvance_slot, pushWrite_slot_of_ne s d hj]

/-- Settles O35: no operation writes flash, configuration or the model's fields, and the ring's write no other unit's. -/
theorem ringOperationsFrame : Obligations.RingOperationsFrame := by
  intro i s t hunit h
  obtain rfl := exec_eq_next_iff.mp h
  simp only [effect_flashByte, effect_cfg, effect_producer, effect_consumer, effect_order, effect_resetIn, effect_draws,
    implies_true, true_and]
  cases i with
  | rbPush d =>
    rw [effect_rbPush]
    simp +contextual [ringPush_slot_of_ne]
  | rbPop =>
    rw [effect_rbPop]
    simp
  | _ => simp [Instr.blockUnit] at hunit

/-- A push and then a pop, in terms of the ring's own (R63). -/
theorem effect_rbPop_effect_rbPush (d : Byte) (s : State) : effect .rbPop (effect (.rbPush d) s) =
    (s.ringPush d).ringPop.2.respond (popOut (s.ringPush d).ringPop.1) := by
  rw [effect_rbPush, effect_respond, effect_rbPop]

/-- A pop and then a push, in terms of the ring's own (R63). -/
theorem effect_rbPush_effect_rbPop (d : Byte) (s : State) :
    effect (.rbPush d) (effect .rbPop s) = (s.ringPop.2.ringPush d).respond quiet := by
  rw [effect_rbPop, effect_respond, effect_rbPush]

/-- Settles O32: on a full and on an empty ring by the queue; else a push and a pop commute. -/
theorem pushAndPopOrdersDifferOnlyAtTheBoundaries : Obligations.PushAndPopOrdersDifferOnlyAtTheBoundaries := by
  intro s d
  refine ⟨_, _, runAll_eq _ s, runAll_eq _ s, fun hfull => ?_, fun hempty => ?_, fun hroom hbyte => ?_⟩
  · have hlen := (rbFull_iff_length s).mp hfull
    simp only [runState_cons, runState_nil, effect_rbPop_effect_rbPush, effect_rbPush_effect_rbPop,
      ringContents_respond, ringContents_ringPop, ringContents_ringPush, hlen, if_true, List.length_tail, true_and]
    rfl
  · have hnil := (rbEmpty_iff_ringContents s).mp hempty
    refine ⟨?_, ?_, ?_, ?_⟩
    · simp [effect_rbPop_effect_rbPush, takenByte, ringPop_fst, ringContents_ringPush, hnil]
    · simp [effect_rbPop s, takenByte, ringPop_fst, hnil]
    · simp [effect_rbPop_effect_rbPush, ringContents_ringPop, ringContents_ringPush, hnil]
    · simp [effect_rbPush_effect_rbPop, ringContents_ringPop, ringContents_ringPush, hnil]
  · have hcomm := ringPush_ringPop_comm hroom hbyte d
    simp only [runState_cons, runState_nil, takenBytes_cons, takenBytes_nil, effect_rbPop_effect_rbPush,
      effect_rbPush_effect_rbPop, hcomm]
    exact ⟨rfl, rfl⟩

end Sys2Proof.Machine
end

section
/-! SUPPORT. Merges of two sequences. -/

namespace Sys2Proof.Machine

variable {α : Type} {k : α} {ps cs m : List α}

/-- Only empty sequences merge to nothing. -/
theorem merge_nil_iff : Merge ps cs [] ↔ ps = [] ∧ cs = [] := by
  constructor
  · rintro ⟨⟩
    exact ⟨rfl, rfl⟩
  · rintro ⟨rfl, rfl⟩
    exact .nil

/-- The first of a merge is the first of one of the two. -/
theorem merge_cons_iff : Merge ps cs (k :: m) ↔
    (∃ ps', ps = k :: ps' ∧ Merge ps' cs m) ∨ ∃ cs', cs = k :: cs' ∧ Merge ps cs' m := by
  constructor
  · rintro (_ | h | h)
    · exact .inl ⟨_, rfl, h⟩
    · exact .inr ⟨_, rfl, h⟩
  · rintro (⟨_, rfl, h⟩ | ⟨_, rfl, h⟩)
    · exact .producer h
    · exact .consumer h

/-- The two merges of two single elements. -/
theorem merge_singletons {p c : α} (h : Merge [p] [c] m) : m = [p, c] ∨ m = [c, p] := by
  rcases h with _ | h | h
  · rcases h with _ | _ | h
    cases h
    exact .inl rfl
  · rcases h with _ | h | _
    cases h
    exact .inr rfl

end Sys2Proof.Machine
end

section
/-! SUPPORT. How sub-steps follow atomic operations (spec/20_memory.md R57). An accepted push counts as performed at its head
advance and a dropped one at its test; a pop that answers a byte at its tail advance and one that answers none at its test. Until
then the split run differs from the atomic one at most in the slot a push has written ahead. -/

namespace Sys2Proof.Machine

/-- Where the push under way stands. -/
inductive PushPhase where
  /-- No push is under way. -/
  | idle
  /-- The push of a byte has tested for full. -/
  | tested (d : Byte)
  /-- The push of a byte has written its slot. -/
  | written (d : Byte)

/-- Where the pop under way stands. -/
inductive PopPhase where
  /-- No pop is under way. -/
  | idle
  /-- The pop has tested for empty. -/
  | tested
  /-- The pop has read its slot. -/
  | read

/-- The sub-steps the push under way has still to do. -/
def PushPhase.rest : PushPhase → List SubStep
  | .idle => []
  | .tested d => [.writeSlot d, .advanceHead]
  | .written _ => [.advanceHead]

/-- The sub-steps the pop under way has still to do. -/
def PopPhase.rest : PopPhase → List SubStep
  | .idle => []
  | .tested => [.readSlot, .advanceTail]
  | .read => [.advanceTail]

/-- The push under way as an atomic operation not yet performed: one that found room. -/
def PushPhase.todo (room : Bool) : PushPhase → List Instr
  | .idle => []
  | .tested d => if room then [.rbPush d] else []
  | .written d => if room then [.rbPush d] else []

/-- The pop under way as an atomic operation not yet performed: one that found a byte. -/
def PopPhase.todo (found : Bool) : PopPhase → List Instr
  | .idle => []
  | .tested => if found then [.rbPop] else []
  | .read => if found then [.rbPop] else []

/-- The answer of the pop under way if it counts as performed: none found. -/
def PopPhase.owed (found : Bool) : PopPhase → List (Option Byte)
  | .idle => []
  | .tested => if found then [] else [none]
  | .read => if found then [] else [none]

/-- What the push under way has written ahead. -/
def PushPhase.ahead (room : Bool) (a : State) : PushPhase → State
  | .idle => a
  | .tested _ => a
  | .written d => if room then a.pushWrite d else a

/-- The split run `r`, its push and pop under way in phases `p` and `q`, follows the atomic run in state `a`. -/
structure Follows (p : PushPhase) (q : PopPhase) (r : SubRun) (a : State) : Prop where
  /-- The states agree but for what the push has written ahead. -/
  state : r.state = p.ahead r.room a
  /-- There is still room for a push that found room. -/
  room : p ≠ .idle → r.room = true → a.rbFull = false
  /-- There is still a byte for a pop that found one. -/
  found : q ≠ .idle → r.found = true → a.rbEmpty = false
  /-- A pop that has read its slot holds the oldest byte, or none. -/
  held : q = .read → r.held = if r.found then some (a.slot a.rbTail) else none

/-- The split run ends, in `r`, as some merge of the atomic operations `ps` and `cs` does from `a`, and has added to `answers`
what their pops answer. -/
def EndsAsMerge (ps cs : List Instr) (a : State) (answers : List (Option Byte)) (r : SubRun) : Prop :=
  ∃ is, Merge ps cs is ∧ r.state = (runState is a).respond a.out ∧ r.answers = answers ++ popResults (outputs is a)

/-- A push answers nothing (R122). -/
theorem popResults_outputs_rbPush (d : Byte) (is : List Instr) (s : State) :
    popResults (outputs (.rbPush d :: is) s) = popResults (outputs is (s.ringPush d)) := by
  rw [outputs_cons, effect_rbPush, outputs_respond]
  rfl

/-- A pop's answer comes first (R123). -/
theorem popResults_outputs_rbPop (is : List Instr) (s : State) :
    popResults (outputs (.rbPop :: is) s) = s.ringPop.1 :: popResults (outputs is s.ringPop.2) := by
  rw [outputs_cons, effect_rbPop, outputs_respond]
  simp [popResults]

section
variable {ps cs : List Instr} {a : State} {answers : List (Option Byte)} {r : SubRun}

/-- Nothing to do: nothing done. -/
theorem EndsAsMerge.done (hstate : r.state = a) (hans : r.answers = answers) : EndsAsMerge [] [] a answers r :=
  ⟨[], .nil, by rw [hstate, runState_nil, respond_out_self], by simp [hans, popResults]⟩

/-- A push performed first gives no answer. -/
theorem EndsAsMerge.push {d : Byte} (h : EndsAsMerge ps cs (a.ringPush d) answers r) :
    EndsAsMerge (.rbPush d :: ps) cs a answers r := by
  obtain ⟨is, hm, hstate, hans⟩ := h
  refine ⟨.rbPush d :: is, .producer hm, ?_, ?_⟩
  · rw [hstate, runState_cons, effect_rbPush, runState_respond, ringPush_out]
  · rw [hans, popResults_outputs_rbPush]

/-- A pop performed first gives the first answer. -/
theorem EndsAsMerge.pop (h : EndsAsMerge ps cs a.ringPop.2 (answers ++ [a.ringPop.1]) r) :
    EndsAsMerge ps (.rbPop :: cs) a answers r := by
  obtain ⟨is, hm, hstate, hans⟩ := h
  refine ⟨.rbPop :: is, .consumer hm, ?_, ?_⟩
  · rw [hstate, runState_cons, effect_rbPop, runState_respond, ringPop_out]
  · rw [hans, popResults_outputs_rbPop, List.append_assoc, List.singleton_append]

end

section
variable {p : PushPhase} {q : PopPhase} {r : SubRun} {a : State} {d : Byte}

/-! ### What is written ahead touches neither index nor the slot a pop reads -/

theorem ahead_rbEmpty (room : Bool) (a : State) (p : PushPhase) : (p.ahead room a).rbEmpty = a.rbEmpty := by
  cases p <;> cases room <;> rfl

theorem ahead_rbTail (room : Bool) (a : State) (p : PushPhase) : (p.ahead room a).rbTail = a.rbTail := by
  cases p <;> cases room <;> rfl

theorem ahead_popAdvance (room : Bool) (a : State) (p : PushPhase) :
    (p.ahead room a).popAdvance = p.ahead room a.popAdvance := by
  cases p <;> cases room <;> rfl

theorem ahead_slot_rbTail (room : Bool) (h : a.rbEmpty = false) (p : PushPhase) :
    (p.ahead room a).slot a.rbTail = a.slot a.rbTail := by
  cases p with
  | written d =>
    cases room with
    | true => exact pushWrite_slot_rbTail h d
    | false => rfl
  | _ => rfl

/-! ### The producer's sub-steps -/

/-- A push's test decides whether the push will be performed, and a full ring drops it at once. -/
theorem Follows.testFull (h : Follows .idle q r a) (d : Byte) :
    Follows (.tested d) q (SubStep.testFull.run r) a where
  state := h.state
  room _ hroom := by
    have hstate : r.state = a := h.state
    simpa [SubStep.run, hstate] using hroom
  found := h.found
  held := h.held

/-- A push's slot write is ahead of the atomic run. -/
theorem Follows.writeSlot (h : Follows (.tested d) q r a) :
    Follows (.written d) q ((SubStep.writeSlot d).run r) a where
  state := by
    have hstate : r.state = a := h.state
    simp only [SubStep.run, PushPhase.ahead, hstate]
  room _ := h.room nofun
  found := h.found
  held := h.held

/-- A push's head advance performs a push that found room. -/
theorem Follows.advanceHead (h : Follows (.written d) q r a) :
    Follows .idle q (SubStep.advanceHead.run r) (if r.room then a.ringPush d else a) := by
  have hstate : r.state = if r.room then a.pushWrite d else a := h.state
  cases hroom : r.room with
  | false =>
    rw [hroom] at hstate
    exact ⟨by simpa [SubStep.run, hroom, PushPhase.ahead] using hstate, fun hp => absurd rfl hp, h.found, h.held⟩
  | true =>
    have hfull : a.rbFull = false := h.room nofun hroom
    rw [hroom, if_pos rfl] at hstate
    refine ⟨?_, fun hp => absurd rfl hp, fun hq hfound => ?_, fun hq => ?_⟩
    · simp [SubStep.run, hroom, hstate, ringPush_of_not_rbFull hfull, PushPhase.ahead]
    · exact ringPush_rbEmpty_of_not_rbEmpty (h.found hq hfound) d
    · have hheld := h.held hq
      cases hfound : r.found with
      | false => simpa [SubStep.run, hfound] using hheld
      | true =>
        have hempty : a.rbEmpty = false := h.found (by simp [hq]) hfound
        simpa only [SubStep.run, hfound, if_true, ringPush_slot_rbTail hempty] using hheld

/-! ### The consumer's sub-steps -/

/-- A pop's test decides whether the pop will answer a byte, and an empty ring answers none at once. -/
theorem Follows.testEmpty (h : Follows p .idle r a) : Follows p .tested (SubStep.testEmpty.run r) a where
  state := h.state
  room := h.room
  found _ hfound := by simpa [SubStep.run, h.state, ahead_rbEmpty] using hfound
  held := nofun

/-- A pop reads the oldest byte, whatever a push has written ahead. -/
theorem Follows.readSlot (h : Follows p .tested r a) : Follows p .read (SubStep.readSlot.run r) a where
  state := h.state
  room := h.room
  found _ := h.found nofun
  held _ := by
    cases hfound : r.found with
    | false => simp [SubStep.run, hfound]
    | true =>
      have hempty : a.rbEmpty = false := h.found nofun hfound
      simp only [SubStep.run, hfound, if_true, h.state, ahead_rbTail, ahead_slot_rbTail _ hempty]

/-- A pop's tail advance performs a pop that found a byte. -/
theorem Follows.advanceTail (h : Follows p .read r a) :
    Follows p .idle (SubStep.advanceTail.run r) (if r.found then a.popAdvance else a) := by
  cases hfound : r.found with
  | false =>
    exact ⟨by simpa [SubStep.run, hfound] using h.state, h.room, fun hq => absurd rfl hq, nofun⟩
  | true =>
    have hempty : a.rbEmpty = false := h.found nofun hfound
    refine ⟨?_, fun _ _ => popAdvance_rbFull hempty, fun hq => absurd rfl hq, nofun⟩
    simp only [SubStep.run, hfound, if_true, h.state, ahead_popAdvance]

end

section
variable {p : PushPhase} {q : PopPhase} {k : SubStep} {ds : List Byte} {n : Nat} {ks : List SubStep}

/-- The producer's next sub-step, by the phase of its push. -/
theorem PushPhase.rest_eq_cons (h : p.rest ++ ds.flatMap pushSubSteps = k :: ks) :
    (∃ d ds', p = .idle ∧ ds = d :: ds' ∧ k = .testFull ∧ ks = (PushPhase.tested d).rest ++ ds'.flatMap pushSubSteps) ∨
      (∃ d, p = .tested d ∧ k = .writeSlot d ∧ ks = (PushPhase.written d).rest ++ ds.flatMap pushSubSteps) ∨
      ∃ d, p = .written d ∧ k = .advanceHead ∧ ks = PushPhase.idle.rest ++ ds.flatMap pushSubSteps := by
  cases p with
  | idle => cases ds <;> simp_all [PushPhase.rest, pushSubSteps]
  | tested d => simp_all [PushPhase.rest]
  | written d => simp_all [PushPhase.rest]

/-- The consumer's next sub-step, by the phase of its pop. -/
theorem PopPhase.rest_eq_cons (h : q.rest ++ (List.replicate n popSubSteps).flatten = k :: ks) :
    (∃ n', q = .idle ∧ n = n' + 1 ∧ k = .testEmpty ∧
        ks = PopPhase.tested.rest ++ (List.replicate n' popSubSteps).flatten) ∨
      (q = .tested ∧ k = .readSlot ∧ ks = PopPhase.read.rest ++ (List.replicate n popSubSteps).flatten) ∨
      (q = .read ∧ k = .advanceTail ∧ ks = PopPhase.idle.rest ++ (List.replicate n popSubSteps).flatten) := by
  cases q with
  | idle =>
    cases n with
    | zero => simp [PopPhase.rest] at h
    | succ n =>
      rw [List.replicate_succ, List.flatten_cons] at h
      obtain ⟨rfl, rfl⟩ := List.cons.inj h
      exact .inl ⟨n, rfl, rfl, rfl, rfl⟩
  | tested => simp_all [PopPhase.rest]
  | read => simp_all [PopPhase.rest]

/-- Nothing left of the producer's sub-steps: no push under way or to come. -/
theorem PushPhase.rest_eq_nil (h : p.rest ++ ds.flatMap pushSubSteps = []) : p = .idle ∧ ds = [] := by
  cases p <;> cases ds <;> simp_all [PushPhase.rest, pushSubSteps]

/-- Nothing left of the consumer's sub-steps: no pop under way or to come. -/
theorem PopPhase.rest_eq_nil (h : q.rest ++ (List.replicate n popSubSteps).flatten = []) : q = .idle ∧ n = 0 := by
  cases q <;> cases n <;> simp_all [PopPhase.rest, popSubSteps, List.replicate_succ]

end

section
variable {ps cs : List Instr} {a : State} {answers : List (Option Byte)} {r : SubRun} {d : Byte}

/-- A push to come is performed at its test if the ring is full: it is dropped. -/
theorem EndsAsMerge.of_testFull
    (h : EndsAsMerge ((PushPhase.tested d).todo (!a.rbFull) ++ ps) cs a answers r) :
    EndsAsMerge (.rbPush d :: ps) cs a answers r := by
  cases hfull : a.rbFull with
  | true =>
    rw [hfull] at h
    exact .push (by rwa [ringPush_of_rbFull hfull])
  | false => rwa [hfull] at h

/-- A push under way is performed at its head advance if it found room. -/
theorem EndsAsMerge.of_advanceHead {room : Bool}
    (h : EndsAsMerge ps cs (if room then a.ringPush d else a) answers r) :
    EndsAsMerge ((PushPhase.written d).todo room ++ ps) cs a answers r := by
  cases room with
  | true => exact .push h
  | false => exact h

/-- A pop to come is performed at its test if the ring is empty: it answers none. -/
theorem EndsAsMerge.of_testEmpty
    (h : EndsAsMerge ps (PopPhase.tested.todo (!a.rbEmpty) ++ cs) a (answers ++ PopPhase.tested.owed (!a.rbEmpty)) r) :
    EndsAsMerge ps (.rbPop :: cs) a answers r := by
  cases hempty : a.rbEmpty with
  | true =>
    rw [hempty] at h
    exact .pop (by rwa [ringPop_of_rbEmpty hempty])
  | false =>
    rw [hempty] at h
    simpa [PopPhase.todo, PopPhase.owed] using h

/-- A pop under way is performed at its tail advance if it found a byte. -/
theorem EndsAsMerge.of_advanceTail {found : Bool} (hfound : found = true → a.rbEmpty = false)
    (h : EndsAsMerge ps cs (if found then a.popAdvance else a)
      (answers ++ [if found then some (a.slot a.rbTail) else none]) r) :
    EndsAsMerge ps (PopPhase.read.todo found ++ cs) a (answers ++ PopPhase.read.owed found) r := by
  cases found with
  | true =>
    rw [PopPhase.owed, if_pos rfl, List.append_nil]
    exact .pop (by rwa [ringPop_of_not_rbEmpty (hfound rfl)])
  | false => exact h

end

/-- A split run that follows an atomic one ends as some merge of the operations not yet performed does, however the sub-steps left
are interleaved: by induction over the sub-steps, each of which performs an operation or none. -/
theorem Follows.endsAsMerge {p : PushPhase} {q : PopPhase} {r : SubRun} {a : State} (h : Follows p q r a)
    {ds : List Byte} {n : Nat} {m : List SubStep}
    (hm : Merge (p.rest ++ ds.flatMap pushSubSteps) (q.rest ++ (List.replicate n popSubSteps).flatten) m) :
    EndsAsMerge (p.todo r.room ++ ds.map .rbPush) (q.todo r.found ++ List.replicate n .rbPop) a
      (r.answers ++ q.owed r.found) (m.foldl SubStep.run r) := by
  induction m generalizing p q r a ds n with
  | nil =>
    obtain ⟨hps, hcs⟩ := merge_nil_iff.mp hm
    obtain ⟨rfl, rfl⟩ := PushPhase.rest_eq_nil hps
    obtain ⟨rfl, rfl⟩ := PopPhase.rest_eq_nil hcs
    exact .done h.state (by simp [PopPhase.owed])
  | cons k m ih =>
    rcases merge_cons_iff.mp hm with ⟨ps, hps, hm⟩ | ⟨cs, hcs, hm⟩
    · rcases PushPhase.rest_eq_cons hps with ⟨d, ds, rfl, rfl, rfl, rfl⟩ | ⟨d, rfl, rfl, rfl⟩ | ⟨d, rfl, rfl, rfl⟩
      · have hroom : (SubStep.testFull.run r).room = !a.rbFull := congrArg (fun t : State => !t.rbFull) h.state
        have hend := ih (h.testFull d) hm
        rw [hroom] at hend
        exact .of_testFull hend
      · exact ih h.writeSlot hm
      · exact .of_advanceHead (ih h.advanceHead hm)
    · rcases PopPhase.rest_eq_cons hcs with ⟨n, rfl, rfl, rfl, rfl⟩ | ⟨rfl, rfl, rfl⟩ | ⟨rfl, rfl, rfl⟩
      · have hfound : (SubStep.testEmpty.run r).found = !a.rbEmpty := by
          rw [← ahead_rbEmpty r.room a p, ← h.state]
          rfl
        have hend := ih h.testEmpty hm
        rw [hfound] at hend
        rw [PopPhase.owed, List.append_nil]
        exact .of_testEmpty hend
      · exact ih h.readSlot hm
      · have hans : (SubStep.advanceTail.run r).answers =
            r.answers ++ [if r.found then some (a.slot a.rbTail) else none] := by
          rw [← h.held rfl]
          rfl
        have hend := ih h.advanceTail hm
        rw [hans, PopPhase.owed, List.append_nil] at hend
        exact .of_advanceTail (h.found nofun) hend

end Sys2Proof.Machine
end

section
/-! PROOF. Pushes and pops split into sub-steps (spec/20_memory.md R57). -/

namespace Sys2Proof.Machine

/-- Between two operations of both sides a run follows itself (R57). -/
theorem follows_start (s : State) : Follows .idle .idle ⟨s, false, false, none, []⟩ s :=
  ⟨rfl, fun h => absurd rfl h, fun h => absurd rfl h, nofun⟩

/-- Settles O34: nothing is under way at the start, so the whole interleaving ends as a merge of all operations does. -/
theorem everySubStepInterleavingIsAMergeOfAtomicOperations :
    Obligations.EverySubStepInterleavingIsAMergeOfAtomicOperations := by
  intro ds n m s hm
  obtain ⟨is, his, hstate, hans⟩ := (follows_start s).endsAsMerge hm
  exact ⟨is, _, his, runAll_eq is s, hstate, hans⟩

/-- Settles O33: one push and one pop have two merges; the two cases named are commutations of the ring's own push and pop. -/
theorem subStepInterleavingsAreAtomicOrders : Obligations.SubStepInterleavingsAreAtomicOrders := by
  refine ⟨fun s d m hm => ?_, fun s d h => ringPop_ringPush h d, fun s d h => ringPush_ringPop h d⟩
  have hm' : Merge (PushPhase.idle.rest ++ [d].flatMap pushSubSteps)
      (PopPhase.idle.rest ++ (List.replicate 1 popSubSteps).flatten) m := by
    simpa [PushPhase.rest, PopPhase.rest] using hm
  obtain ⟨is, his, hstate, hans⟩ := (follows_start s).endsAsMerge hm'
  rcases merge_singletons his with rfl | rfl
  · refine .inl ⟨hstate.trans ?_, hans.trans ?_⟩
    · rw [runState_cons, runState_cons, runState_nil, effect_rbPop_effect_rbPush, respond_respond]
      exact respond_of_out_eq (by simp)
    · rw [popResults_outputs_rbPush, popResults_outputs_rbPop]
      rfl
  · refine .inr ⟨hstate.trans ?_, hans.trans ?_⟩
    · rw [runState_cons, runState_cons, runState_nil, effect_rbPush_effect_rbPop, respond_respond]
      exact respond_of_out_eq (by simp)
    · rw [popResults_outputs_rbPop, popResults_outputs_rbPush]
      rfl

end Sys2Proof.Machine
end

section
/-! SUPPORT. The parser's byte step and PS_POLL, case by case (spec/42_frame_parser.md R141 to R147). -/

namespace Sys2Proof.Machine

/-- Selector 0x20 is PS_FEED of `DATA`, whatever `DATA` is (R71, R141). -/
theorem decodeWord_psFeed (d : Byte) : decodeWord (requestOf 0x20 d) = .ok (.psFeed d) := by
  simp [decodeWord]

/-- The last byte of a frame is its CRC byte (R76). -/
@[simp] theorem frameCrc_set_last (f : Frame) (d : Byte) : frameCrc (f.set 63 d) = d := Vector.getElem_set_self _

/-- The last byte of a frame is no part of its body (R75). -/
@[simp] theorem frameBody_set_last (f : Frame) (d : Byte) : frameBody (f.set 63 d) = frameBody f := by
  rw [frameBody, Vector.toList_set, List.take_set_of_le (le_refl 63), frameBody]

/-- A completed frame is yielded exactly when its last byte is the CRC of the others (R78, R143). -/
theorem yielded_set_last (f : Frame) (d : Byte) :
    yielded (f.set 63 d) = if d = crc8 (frameBody f) then some (f.set 63 d) else none := by
  simp only [yielded, crcValid, frameCrc_set_last, frameBody_set_last, beq_iff_eq]

section
variable {s : State}

/-- Every byte fed inside a frame is stored at `PS_POS` (R142, R143). -/
theorem feed_psBuf_of_collecting (h : s.psState = .collecting) (d : Byte) :
    (s.feed d).2.psBuf = s.psBuf.set s.psPos.toNat d s.psPos.isLt := by
  by_cases hp : s.psPos = 63
  · rw [feed_of_last h hp, closeFrame_psBuf]
    simp [hp]
  · rw [feed_of_inside h hp, storeByte_psBuf]

/-- Inside a frame the count of bytes alone decides when it ends (R145). -/
theorem feed_psState_of_collecting (h : s.psState = .collecting) (d : Byte) :
    (s.feed d).2.psState = if s.psPos = 63 then .waitStart else .collecting := by
  by_cases hp : s.psPos = 63
  · rw [feed_of_last h hp, closeFrame_psState, if_pos hp]
  · rw [feed_of_inside h hp, storeByte_psState, h, if_neg hp]

/-- Inside a frame the position counts the bytes, and wraps at the end (R142, R143). -/
theorem feed_psPos_of_collecting (h : s.psState = .collecting) (d : Byte) : (s.feed d).2.psPos = s.psPos + 1 := by
  by_cases hp : s.psPos = 63
  · rw [feed_of_last h hp, closeFrame_psPos, hp]
    rfl
  · rw [feed_of_inside h hp, storeByte_psPos]

/-- A byte fed in WAIT_START touches `PS_BUF[0]` at most (R141). -/
theorem feed_psBuf_of_waitStart (h : s.psState = .waitStart) (d : Byte) {j : Nat} (hj : j < 64) (hne : j ≠ 0) :
    (s.feed d).2.psBuf[j] = s.psBuf[j] := by
  by_cases hd : d = Config.startMarker
  · simp only [feed_of_marker h hd, openFrame_psBuf, Vector.getElem_set_ne _ _ hne.symm]
  · simp only [feed_of_noise h hd]

/-- A byte fed inside a frame touches the byte at `PS_POS` alone (R142, R143). -/
theorem feed_psBuf_of_ne (h : s.psState = .collecting) (d : Byte) {j : Nat} (hj : j < 64) (hne : j ≠ s.psPos.toNat) :
    (s.feed d).2.psBuf[j] = s.psBuf[j] := by
  simp only [feed_psBuf_of_collecting h, Vector.getElem_set_ne _ _ hne.symm]

/-- A frame yielded is the 64 bytes stored, CRC-valid, and the parser waits again (R143). -/
theorem feed_eq_some {d : Byte} {f : Frame} (h : (s.feed d).1 = some f) :
    s.psState = .collecting ∧ s.psPos = 63 ∧ crcValid f = true ∧ f = s.psBuf.set 63 d ∧
      s.feed d = (some f, s.closeFrame d) := by
  rcases feed_cases d s with ⟨_, _, e⟩ | ⟨_, _, e⟩ | ⟨_, _, e⟩ | ⟨hst, hp, e⟩
  · simp [e] at h
  · simp [e] at h
  · simp [e] at h
  · rw [e] at h
    obtain ⟨hvalid, rfl⟩ := yielded_eq_some.mp h
    exact ⟨hst, hp, hvalid, rfl, e.trans (Prod.ext h rfl)⟩

@[simp] theorem feed_rbFull (s : State) (d : Byte) : (s.feed d).2.rbFull = s.rbFull := by rw [feed_frame]; rfl

@[simp] theorem feed_rbEmpty (s : State) (d : Byte) : (s.feed d).2.rbEmpty = s.rbEmpty := by rw [feed_frame]; rfl

/-- A byte step and a push touch different fields (R26, R140). -/
theorem feed_ringPush (s : State) (b d : Byte) :
    (s.ringPush b).feed d = ((s.feed d).1, (s.feed d).2.ringPush b) := by
  have hfed : (s.feed d).2.rbFull = s.rbFull := feed_rbFull s d
  cases h : s.rbFull with
  | true => rw [ringPush_of_rbFull h, ringPush_of_rbFull (hfed.trans h)]
  | false => rw [ringPush_of_not_rbFull h, ringPush_of_not_rbFull (hfed.trans h)]; exact (parserFree_push b).feed s d

/-- A poll of a ring that holds a byte is a byte step of the oldest byte and a pop's advance (R147). -/
theorem poll_eq_feed (h : s.rbEmpty = false) : s.poll =
    (s.feed (s.slot s.rbTail)).2.popAdvance.respond (pollOut (some (s.slot s.rbTail)) (s.feed (s.slot s.rbTail)).1) := by
  rw [poll_of_not_rbEmpty h, parserFree_popAdvance.feed]

/-- A push and then a poll, on a ring that holds a byte (R147). -/
theorem effect_psPoll_effect_rbPush (h : s.rbEmpty = false) (d : Byte) :
    effect .psPoll (effect (.rbPush d) s) =
      ((s.feed (s.slot s.rbTail)).2.ringPush d).popAdvance.respond
        (pollOut (some (s.slot s.rbTail)) (s.feed (s.slot s.rbTail)).1) := by
  rw [effect_rbPush, effect_respond, effect_psPoll, poll_eq_feed (ringPush_rbEmpty_of_not_rbEmpty h d),
    ringPush_slot_rbTail h, feed_ringPush]

/-- A pop, a push and then a byte step, on a ring that holds a byte (R147). -/
theorem effect_psFeed_effect_rbPush_effect_rbPop (h : s.rbEmpty = false) (b d : Byte) :
    effect (.psFeed b) (effect (.rbPush d) (effect .rbPop s)) =
      ((s.feed b).2.popAdvance.ringPush d).respond (frameOnly (s.feed b).1) := by
  rw [effect_rbPush_effect_rbPop, effect_respond, effect_psFeed, ringPop_of_not_rbEmpty h, feed_ringPush,
    parserFree_popAdvance.feed]

/-- The outputs of a poll: `FRAME_OUT` is what the byte step yields (R147). -/
@[simp] theorem pollOut_frameOut (b : Option Byte) (f : Option Frame) : (pollOut b f).frameOut = some f := rfl

/-- An operation that yields a frame is PS_FEED or PS_POLL, and writes the parser's fields as a byte step that yields it
(R30, R147). -/
theorem effect_yields {i : Instr} {f : Frame} (h : (effect i s).out.frameOut = some (some f)) :
    ((∃ d, i = .psFeed d) ∨ i = .psPoll) ∧
      ∃ d, (s.feed d).1 = some f ∧ (effect i s).psBuf = (s.feed d).2.psBuf ∧
        (effect i s).psState = (s.feed d).2.psState := by
  cases i with
  | psFeed d =>
    rw [effect_psFeed] at h ⊢
    exact ⟨.inl ⟨d, rfl⟩, d, Option.some.inj h, rfl, rfl⟩
  | psPoll =>
    rw [effect_psPoll] at h ⊢
    cases hempty : s.rbEmpty with
    | true => simp [poll_of_rbEmpty hempty] at h
    | false =>
      rw [poll_eq_feed hempty] at h ⊢
      exact ⟨.inr rfl, _, Option.some.inj h, rfl, rfl⟩
  | rbPop => cases hpop : s.ringPop.1 <;> simp [effect_rbPop, hpop, popOut, dataOut, noData] at h
  | _ => simp [effect, quiet, dataOut, bootOut] at h

end

end Sys2Proof.Machine
end

section
/-! PROOF. The parser's operations (spec/42_frame_parser.md R141 to R147). -/

namespace Sys2Proof.Machine

/-- Settles O36: the two cases of a byte fed in WAIT_START, and the decoding by the request's owner. -/
theorem psFeedWaitsForTheStartMarker : Obligations.PsFeedWaitsForTheStartMarker := by
  intro d s hst
  refine ⟨?_, ?_, fun hd => ?_, fun hd => ?_⟩
  · exact decode_of_decodeWord (decodeWord_psFeed d) .consumer
  · exact decode_of_decodeWord (decodeWord_psFeed d) .producer
  · rw [exec_psFeed, feed_of_marker hst hd]
    rfl
  · rw [exec_psFeed, feed_of_noise hst hd]
    rfl

/-- Settles O38: the last byte closes the frame, which is yielded when the byte is the CRC of the others. -/
theorem psFeedCompletesTheFrame : Obligations.PsFeedCompletesTheFrame := by
  intro d s hst hpos
  rw [exec_psFeed, feed_of_last hst hpos, yielded_set_last]
  rfl

/-- Settles O39: inside a frame the byte goes to `PS_POS`, and state and position follow the count alone. -/
theorem byteValueNeverMovesACollectingParser : Obligations.ByteValueNeverMovesACollectingParser := by
  intro d e s hst
  refine ⟨_, _, exec_psFeed d s, exec_psFeed e s, ?_⟩
  simp only [respond_psState, respond_psPos, respond_psBuf, feed_psState_of_collecting hst, feed_psPos_of_collecting hst,
    feed_psBuf_of_collecting hst, true_and]
  have hlast : s.psPos = 63 ↔ s.psPos.toNat + 1 = 64 := by bv_omega
  rw [← hlast]
  split <;> simp_all

/-- Settles O40: a poll is a pop and a byte step, neither of which a push in between touches. -/
theorem psPollIsPopThenFeed : Obligations.PsPollIsPopThenFeed := by
  refine ⟨fun s h => ?_, fun s h => ?_, fun s d h => ?_, by decide, by decide⟩
  · rw [exec_eq_effect, effect_psPoll, poll_of_rbEmpty h]
    rfl
  · refine ⟨_, _, exec_eq_effect _ s, exec_eq_effect _ _, ?_⟩
    rw [exec_eq_effect, effect_psPoll, poll_of_not_rbEmpty h, effect_rbPop, effect_respond, ringPop_of_not_rbEmpty h,
      effect_psFeed]
    rfl
  · refine ⟨_, _, runAll_eq _ s, runAll_eq _ s, ?_⟩
    simp only [runState_cons, runState_nil, effect_psPoll_effect_rbPush h, effect_psFeed_effect_rbPush_effect_rbPop h]
    refine ⟨fun hroom => ?_, by simp, by simp, by simp, rfl⟩
    have hfull := (feed_rbFull s (s.slot s.rbTail)).trans hroom
    have hempty := (feed_rbEmpty s (s.slot s.rbTail)).trans h
    have hcomm := congrArg (State.respond s.out) (ringPush_popAdvance hfull hempty d)
    exact hcomm

/-- Settles O41: only a byte step yields, and only at the end of a frame, whose first byte the invariant gives. -/
theorem yieldedFramesAreMarkedAndCrcValid : Obligations.YieldedFramesAreMarkedAndCrcValid := by
  intro i s t f hinv h hout
  obtain rfl := exec_eq_next_iff.mp h
  obtain ⟨hop, d, hfed, hbuf, hstate⟩ := effect_yields hout
  obtain ⟨hst, -, hvalid, hf, hfeed⟩ := feed_eq_some hfed
  obtain ⟨-, -, hmarker⟩ := hinv.2 hst
  rw [hfeed] at hbuf hstate
  refine ⟨?_, beq_iff_eq.mp hvalid, by rw [hbuf, hf, closeFrame_psBuf], hstate, hop⟩
  rw [hf, frameAddr, Vector.getElem_set_ne _ _ (by decide)]
  exact hmarker

/-- Settles O43: no operation writes flash, configuration or the model's fields, and the parser's write no other unit's. -/
theorem parserOperationsFrame : Obligations.ParserOperationsFrame := by
  intro i s t hunit h
  obtain rfl := exec_eq_next_iff.mp h
  simp only [effect_flashByte, effect_cfg, effect_producer, effect_consumer, effect_order, effect_resetIn, effect_draws,
    implies_true, true_and]
  cases i with
  | psFeed d =>
    rw [effect_psFeed]
    refine ⟨?_, ?_, ?_, ?_, fun hst _ => feed_psBuf_of_waitStart hst d, fun hst _ => feed_psBuf_of_ne hst d⟩ <;> simp
  | psPoll =>
    rw [effect_psPoll]
    cases hempty : s.rbEmpty with
    | true => simp [poll_of_rbEmpty hempty]
    | false =>
      rw [poll_eq_feed hempty]
      refine ⟨?_, ?_, ?_, nofun, fun hst _ => feed_psBuf_of_waitStart hst _, fun hst _ => feed_psBuf_of_ne hst _⟩ <;> simp
  | _ => simp [Instr.blockUnit] at hunit

end Sys2Proof.Machine
end

section
/-! SUPPORT. The frame starts of a byte stream, by its first byte (spec/42_frame_parser.md R148): noise is skipped, and a marker
starts a frame of 64 bytes, past which the search begins anew. -/

namespace Sys2Proof.Machine

/-- Index `m` is the first at or after `p` with a start marker (R148). -/
def FirstMarker (x : List Byte) (p m : Nat) : Prop :=
  p ≤ m ∧ x[m]? = some Config.startMarker ∧ ∀ j, p ≤ j → j < m → x[j]? ≠ some Config.startMarker

variable {x : List Byte}

/-- The first frame start is the first marker (R148). -/
theorem FrameStart.of_firstMarker {m : Nat} (h : FirstMarker x 0 m) : FrameStart x m := by
  obtain ⟨-, hm, hnone⟩ := h
  exact .first hm fun j hj => hnone j (Nat.zero_le j) hj

/-- The frame start after `k` is the first marker past its 64 bytes (R148). -/
theorem FrameStart.of_firstMarker_later {k m : Nat} (hk : FrameStart x k) (h : FirstMarker x (k + 64) m) :
    FrameStart x m := by
  obtain ⟨hle, hm, hnone⟩ := h
  exact .later hk hle hm hnone

/-- Dropping bytes before the point where the search begins shifts the marker found. -/
theorem firstMarker_drop {a p m : Nat} : FirstMarker (x.drop a) p m ↔ FirstMarker x (a + p) (a + m) := by
  simp only [FirstMarker, List.getElem?_drop, Nat.add_le_add_iff_left]
  refine and_congr_right fun _ => and_congr_right fun _ => ⟨fun h j hpj hjm => ?_, fun h j hpj hjm => ?_⟩
  · obtain ⟨i, rfl⟩ := Nat.exists_eq_add_of_le (show a ≤ j by omega)
    exact h i (by omega) (by omega)
  · exact h (a + j) (by omega) (by omega)

/-- Frame starts past 64 bytes from a frame start are those of the rest of the stream. -/
theorem FrameStart.of_drop {a k : Nat} (hstart : ∀ m, FirstMarker x a m → FrameStart x m)
    (h : FrameStart (x.drop a) k) : FrameStart x (a + k) := by
  induction h with
  | first hm hnone =>
    exact hstart _ (firstMarker_drop.mp ⟨Nat.zero_le _, hm, fun j _ => hnone j⟩)
  | later _ hle hm hnone ih =>
    have hmarker := firstMarker_drop.mp ⟨hle, hm, hnone⟩
    exact ih.of_firstMarker_later (by rwa [Nat.add_assoc])

/-- A first byte other than the marker only shifts the frame starts (R141, R148). -/
theorem frameStart_cons_noise {b : Byte} (hb : b ≠ Config.startMarker) (k : Nat) :
    FrameStart (b :: x) k ↔ ∃ k', k = k' + 1 ∧ FrameStart x k' := by
  constructor
  · intro h
    induction h with
    | @first m hm hnone =>
      cases m with
      | zero => simp [hb] at hm
      | succ m => exact ⟨m, rfl, .first hm fun j hj => hnone (j + 1) (by omega)⟩
    | @later k m _ hle hm hnone ih =>
      obtain ⟨k', rfl, hk'⟩ := ih
      obtain ⟨m, rfl⟩ := Nat.exists_eq_add_of_le' (show 1 ≤ m by omega)
      exact ⟨m, rfl, .later hk' (by omega) hm fun j hkj hjm => hnone (j + 1) (by omega) (by omega)⟩
  · rintro ⟨k, rfl, h⟩
    rw [Nat.add_comm]
    refine FrameStart.of_drop (x := b :: x) (fun m hm => ?_) h
    obtain ⟨hle, hmarker, hnone⟩ := hm
    refine .of_firstMarker ⟨Nat.zero_le m, hmarker, fun j _ hjm => ?_⟩
    cases j with
    | zero => simpa using hb
    | succ j => exact hnone (j + 1) (by omega) hjm

/-- A first byte that is the marker is a frame start, and the others are those past its 64 bytes (R148). -/
theorem frameStart_cons_marker (k : Nat) :
    FrameStart (Config.startMarker :: x) k ↔ k = 0 ∨ ∃ k', k = 64 + k' ∧ FrameStart (x.drop 63) k' := by
  have hzero : FrameStart (Config.startMarker :: x) 0 := .first rfl (by simp)
  constructor
  · intro h
    induction h with
    | @first m _ hnone =>
      left
      by_contra hm
      exact hnone 0 (by omega) rfl
    | @later k m _ hle hm hnone ih =>
      right
      obtain ⟨m, rfl⟩ := Nat.exists_eq_add_of_le (show 64 ≤ m by omega)
      refine ⟨m, rfl, ?_⟩
      rcases ih with rfl | ⟨k, rfl, hk⟩
      · exact .of_firstMarker ((firstMarker_drop (x := Config.startMarker :: x) (a := 64)).mpr ⟨hle, hm, hnone⟩)
      · refine hk.of_firstMarker_later ((firstMarker_drop (x := Config.startMarker :: x) (a := 64)).mpr ?_)
        exact ⟨hle, hm, hnone⟩
  · rintro (rfl | ⟨k, rfl, h⟩)
    · exact hzero
    · exact FrameStart.of_drop (x := Config.startMarker :: x) (fun m hm => hzero.of_firstMarker_later hm) h

end Sys2Proof.Machine
end

section
/-! SUPPORT. What the parser yields over a byte stream (spec/42_frame_parser.md R141 to R148). -/

namespace Sys2Proof.Machine

/-- Fed the bytes `x` from state `s`, the parser yields the frame `f` at step `n`. -/
def Yields (x : List Byte) (s : State) (n : Nat) (f : Frame) : Prop :=
  ∃ r, (outputs (x.map Instr.psFeed) s)[n]? = some r ∧ r.frameOut = some (some f)

/-- The frame `f` stands at index `k` of the stream, CRC-valid (R148). -/
def Window (x : List Byte) (k : Nat) (f : Frame) : Prop :=
  (x.drop k).take 64 = f.toList ∧ frameCrc f = crc8 (frameBody f)

section
variable {x : List Byte} {s : State} {n : Nat} {f : Frame} {b : Byte}

/-- No bytes, no frame. -/
@[simp] theorem not_yields_nil : ¬ Yields [] s n f := by simp [Yields]

/-- The first step yields what its byte step does. -/
@[simp] theorem yields_cons_zero : Yields (b :: x) s 0 f ↔ (s.feed b).1 = some f := by
  simp [Yields, effect_psFeed, frameOnly]

/-- Later steps yield what the bytes after the first do. -/
@[simp] theorem yields_cons_succ : Yields (b :: x) s (n + 1) f ↔ Yields x (s.feed b).2 n f := by
  simp only [Yields, List.map_cons, outputs_cons, List.getElem?_cons_succ, effect_psFeed, outputs_respond]

/-- The bytes stored of a frame after one more (R142). -/
theorem storeByte_take (s : State) (b : Byte) :
    (s.storeByte b).psBuf.toList.take (s.psPos.toNat + 1) = s.psBuf.toList.take s.psPos.toNat ++ [b] := by
  have hlt : s.psPos.toNat < s.psBuf.toList.length := by simp [s.psPos.isLt]
  rw [storeByte_psBuf, Vector.toList_set, List.take_add_one, List.take_set_of_le (le_refl _), List.getElem?_set_self hlt]
  rfl

/-- The last byte step yields the bytes stored and its own, if they are CRC-valid (R143). -/
theorem yielded_eq_some_iff_bytes (g : Frame) (b : Byte) :
    yielded (g.set 63 b) = some f ↔ frameBody g ++ [b] = f.toList ∧ frameCrc f = crc8 (frameBody f) := by
  have hbytes : (g.set 63 b).toList = frameBody g ++ [b] := by
    rw [toList_eq_frameBody_append, frameBody_set_last, frameCrc_set_last]
  rw [yielded_eq_some, ← hbytes, Vector.toList_inj, and_comm, crcValid, beq_iff_eq]
  exact and_congr_right fun h => by rw [h]

/-- Inside a frame the parser yields nothing before the 64th byte, then the frame if it is CRC-valid, and then what it yields
from WAIT_START on the bytes after the frame (R142, R143). -/
theorem yields_collecting (x : List Byte) (s : State) (hst : s.psState = .collecting) :
    ∃ t : State, t.psState = .waitStart ∧ ∀ n f, Yields x s n f ↔
      (n + s.psPos.toNat = 63 ∧ s.psBuf.toList.take s.psPos.toNat ++ x.take (64 - s.psPos.toNat) = f.toList ∧
        frameCrc f = crc8 (frameBody f)) ∨
      ∃ n', n + s.psPos.toNat = 64 + n' ∧ Yields (x.drop (64 - s.psPos.toNat)) t n' f := by
  have hlt := s.psPos.isLt
  induction x generalizing s with
  | nil =>
    refine ⟨s.closeFrame 0, rfl, fun n f => ?_⟩
    have hshort : s.psBuf.toList.take s.psPos.toNat ≠ f.toList := fun h => by
      have := congrArg List.length h
      simp at this
      omega
    simp [hshort]
  | cons b x ih =>
    by_cases hp : s.psPos = 63
    · have hpos : s.psPos.toNat = 63 := by rw [hp]; rfl
      refine ⟨s.closeFrame b, rfl, fun n f => ?_⟩
      rw [hpos]
      cases n with
      | zero =>
        rw [yields_cons_zero, feed_of_last hst hp, yielded_eq_some_iff_bytes]
        simp only [zero_add, true_and, frameBody]
        constructor
        · exact .inl
        · rintro (h | ⟨n', hn', -⟩)
          · exact h
          · omega
      | succ n =>
        rw [yields_cons_succ, feed_of_last hst hp]
        constructor
        · exact fun h => .inr ⟨n, by omega, h⟩
        · rintro (⟨hn, -⟩ | ⟨n', hn', h⟩)
          · omega
          · obtain rfl : n = n' := by omega
            exact h
    · have hpos : s.psPos.toNat ≠ 63 := fun h => hp (BitVec.eq_of_toNat_eq h)
      have hnext : (s.storeByte b).psPos.toNat = s.psPos.toNat + 1 := by
        rw [storeByte_psPos]
        bv_omega
      obtain ⟨t, ht, hyields⟩ := ih (s.storeByte b) hst (by omega)
      refine ⟨t, ht, fun n f => ?_⟩
      obtain ⟨k, hk⟩ := Nat.exists_eq_add_of_le' (show 1 ≤ 64 - s.psPos.toNat by omega)
      have hk' : 64 - (s.psPos.toNat + 1) = k := by omega
      cases n with
      | zero =>
        rw [yields_cons_zero, feed_of_inside hst hp]
        simp only [zero_add, reduceCtorEq, false_iff, not_or, not_and, not_exists]
        exact ⟨fun h => absurd h hpos, fun n' hn' => by omega⟩
      | succ n =>
        rw [yields_cons_succ, feed_of_inside hst hp, hyields, hnext, storeByte_take, hk, hk', List.take_succ_cons,
          List.drop_succ_cons, List.append_assoc, List.singleton_append, Nat.add_right_comm n 1, Nat.add_assoc n]

/-- Skipping noise, or a frame and its bytes, shifts the windows. -/
theorem window_cons {a k : Nat} : Window (b :: x) (a + 1 + k) f ↔ Window (x.drop a) k f := by
  rw [Window, Window, List.drop_drop, Nat.add_right_comm, List.drop_succ_cons]

end

/-- In WAIT_START a byte of noise only shifts what is yielded (R141). -/
theorem yields_cons_noise {x : List Byte} {s : State} {b : Byte} (hst : s.psState = .waitStart)
    (hb : b ≠ Config.startMarker) (n : Nat) (f : Frame) :
    Yields (b :: x) s n f ↔ ∃ n', n = n' + 1 ∧ Yields x s n' f := by
  cases n with
  | zero => simp [feed_of_noise hst hb]
  | succ n => simp [feed_of_noise hst hb]

/-- In WAIT_START a marker opens a frame: its window is yielded at its last byte if it is CRC-valid, and then what the parser
yields from WAIT_START on the bytes after the frame (R141 to R143). -/
theorem yields_cons_marker (x : List Byte) (s : State) (hst : s.psState = .waitStart) :
    ∃ t : State, t.psState = .waitStart ∧ ∀ n f, Yields (Config.startMarker :: x) s n f ↔
      (n = 63 ∧ Window (Config.startMarker :: x) 0 f) ∨ ∃ n', n = 64 + n' ∧ Yields (x.drop 63) t n' f := by
  obtain ⟨t, ht, hyields⟩ := yields_collecting x (s.openFrame Config.startMarker) rfl
  refine ⟨t, ht, fun n f => ?_⟩
  have hbytes : (s.openFrame Config.startMarker).psBuf.toList.take 1 = [Config.startMarker] := by
    rw [openFrame_psBuf, Vector.toList_set, List.take_one, List.head?_eq_getElem?, List.getElem?_set_self (by simp)]
    rfl
  cases n with
  | zero =>
    have hlate (n' : Nat) : 0 ≠ 64 + n' := by omega
    simp [feed_of_marker hst rfl, hlate]
  | succ n =>
    have hpos : (s.openFrame Config.startMarker).psPos.toNat = 1 := rfl
    rw [yields_cons_succ, feed_of_marker hst rfl, hyields, hpos, hbytes]
    rfl

/-- Over any byte stream fed from WAIT_START, the parser yields exactly the windows at the frame starts, each at its last byte:
by induction over the stream, past one byte of noise or one whole frame. -/
theorem yields_iff (x : List Byte) (s : State) (hst : s.psState = .waitStart) (n : Nat) (f : Frame) :
    Yields x s n f ↔ ∃ k, FrameStart x k ∧ n = k + 63 ∧ Window x k f := by
  induction hlen : x.length using Nat.strongRecOn generalizing x s n with
  | _ len ih =>
  cases x with
  | nil =>
    have hnone : ∀ k, ¬ Window [] k f := fun k ⟨h, _⟩ => by
      have := congrArg List.length h
      simp at this
    simp [hnone]
  | cons b x =>
    rw [List.length_cons] at hlen
    by_cases hb : b = Config.startMarker
    · subst hb
      obtain ⟨t, ht, hyields⟩ := yields_cons_marker x s hst
      rw [hyields]
      have hrest (n' : Nat) : Yields (x.drop 63) t n' f ↔
          ∃ k, FrameStart (x.drop 63) k ∧ n' = k + 63 ∧ Window (x.drop 63) k f :=
        ih (x.drop 63).length (by rw [List.length_drop]; omega) (x.drop 63) t ht n' rfl
      constructor
      · rintro (⟨rfl, h⟩ | ⟨n, rfl, h⟩)
        · exact ⟨0, (frameStart_cons_marker 0).mpr (.inl rfl), rfl, h⟩
        · obtain ⟨k, hk, rfl, hw⟩ := (hrest n).mp h
          exact ⟨64 + k, (frameStart_cons_marker _).mpr (.inr ⟨k, rfl, hk⟩), by omega, window_cons.mpr hw⟩
      · rintro ⟨k, hk, rfl, h⟩
        rcases (frameStart_cons_marker k).mp hk with rfl | ⟨k, rfl, hk'⟩
        · exact .inl ⟨rfl, h⟩
        · exact .inr ⟨k + 63, by omega, (hrest _).mpr ⟨k, hk', rfl, window_cons.mp h⟩⟩
    · rw [yields_cons_noise hst hb]
      have hrest (n' : Nat) : Yields x s n' f ↔ ∃ k, FrameStart x k ∧ n' = k + 63 ∧ Window x k f :=
        ih x.length (by omega) x s hst n' rfl
      have hshift : ∀ k, Window (b :: x) (k + 1) f ↔ Window x k f := fun k => by
        rw [Nat.add_comm]
        exact window_cons (a := 0)
      constructor
      · rintro ⟨n, rfl, h⟩
        obtain ⟨k, hk, rfl, hw⟩ := (hrest n).mp h
        exact ⟨k + 1, (frameStart_cons_noise hb _).mpr ⟨k, rfl, hk⟩, by omega, (hshift k).mpr hw⟩
      · rintro ⟨k, hk, rfl, h⟩
        obtain ⟨k, rfl, hk'⟩ := (frameStart_cons_noise hb _).mp hk
        exact ⟨k + 63, by omega, (hrest _).mpr ⟨k, hk', rfl, (hshift k).mp h⟩⟩

end Sys2Proof.Machine
end

section
/-! PROOF. The yield property over a stream (spec/42_frame_parser.md R148). -/

namespace Sys2Proof.Machine

/-- Settles O42: the frames yielded are the windows at the frame starts. -/
theorem parserYieldsExactlyTheValidWindows : Obligations.ParserYieldsExactlyTheValidWindows :=
  fun x s n f hst => yields_iff x s hst n f

end Sys2Proof.Machine
end

section
/-! SUPPORT. The validator's checks and the words it reads, in plain numbers (spec/43_boot_validator.md R171 to R173;
spec/20_memory.md R53, R59). -/

namespace Sys2Proof.Machine

/-- The stack-pointer check is the mask compare (R171). -/
theorem spOk_iff (p : OpenParams) (sp : Word) : spOk p sp = true ↔ sp &&& p.ramMask = p.ramMatch := beq_iff_eq

/-- The reset-vector check is the inclusive range check on unsigned words (R172). -/
theorem rvOk_iff (p : OpenParams) (rv : Word) :
    rvOk p rv = true ↔ p.flashLo.toNat ≤ rv.toNat ∧ rv.toNat ≤ p.flashHi.toNat := by
  simp [rvOk, BitVec.ule]

/-- With the override disabled `FORCE_IN` fails no check (R173). -/
@[simp] theorem forceOk_eq (force : Bool) : forceOk force = true := rfl

/-- `BOOT_OK` in plain numbers (R174). -/
theorem bootOk_iff (p : OpenParams) (sp rv : Word) (force : Bool) : bootOk p sp rv force = true ↔
    sp &&& p.ramMask = p.ramMatch ∧ p.flashLo.toNat ≤ rv.toNat ∧ rv.toNat ≤ p.flashHi.toNat := by
  rw [bootOk, forceOk_eq, Bool.and_true, Bool.and_eq_true, spOk_iff, rvOk_iff]

/-- `APP_BASE` is a multiple of 4 (R59). -/
theorem appBase_toNat (p : OpenParams) : (appBase p).toNat = 4 * p.appBaseWord.toNat := by
  rw [appBase, BitVec.toNat_append, Nat.shiftLeft_eq, BitVec.toNat_ofNat]
  simp [Nat.mul_comm]

/-- Two words side by side, the low one of `n` bits, as a number. -/
theorem append_toNat_eq {m n : Nat} (a : BitVec m) (b : BitVec n) : (a ++ b).toNat = a.toNat * 2 ^ n + b.toNat := by
  rw [BitVec.toNat_append, ← Nat.shiftLeft_add_eq_or_of_lt b.isLt, Nat.shiftLeft_eq]

/-- An aligned `APP_BASE` is kept by a block built with it (R59). -/
theorem appBase_paramsOf {p : BuildParams} (h : p.appBase.toNat % 4 = 0) : appBase (paramsOf p) = p.appBase := by
  apply BitVec.eq_of_toNat_eq
  have := p.appBase.isLt
  rw [appBase_toNat, paramsOf, BitVec.extractLsb'_toNat, Nat.shiftRight_eq_div_pow]
  omega

/-- Selector 0x30 is BV_CHECK of the side operands `SP_IN`, `RV_IN` and `FORCE_IN` (R71, R174). -/
theorem decodeWord_bvCheck (seq : List Byte) (sp rv : Word) (force : Bool) :
    decodeWord ⟨0x3000, seq, sp, rv, force⟩ = .ok (.bvCheck sp rv force) := by
  simp [decodeWord, Request.op, Request.data, Request.withoutData]

end Sys2Proof.Machine
end

section
/-! PROOF. The validator and the configuration (spec/43_boot_validator.md R170 to R175; spec/20_memory.md R53, R59). -/

namespace Sys2Proof.Machine

/-- Settles O44: the effect is the model's, its checks in plain numbers, and selector 0x30 takes the side operands. -/
theorem bvCheckDecidesOnTheGivenWords : Obligations.BvCheckDecidesOnTheGivenWords := by
  refine ⟨fun sp rv force s => ?_, fun seq sp rv force => ⟨?_, ?_⟩⟩
  · have hdecide : bootOk s.cfg sp rv force = decide (sp &&& s.cfg.ramMask = s.cfg.ramMatch ∧
        s.cfg.flashLo.toNat ≤ rv.toNat ∧ rv.toNat ≤ s.cfg.flashHi.toNat) := by
      rw [Bool.eq_iff_iff, bootOk_iff, decide_eq_true_iff]
    rw [exec_eq_effect, effect, hdecide]
    rfl
  · exact decode_of_decodeWord (decodeWord_bvCheck seq sp rv force) .consumer
  · exact decode_of_decodeWord (decodeWord_bvCheck seq sp rv force) .producer

/-- Settles O45: a match inside the mask passes the check itself, and a bit outside the mask survives no masking. -/
theorem spCheckAcceptsOnlyIfMatchLiesInMask : Obligations.SpCheckAcceptsOnlyIfMatchLiesInMask := by
  intro p
  refine ⟨spOk_iff p, fun hout sp => ?_, fun hin => ⟨p.ramMatch, (spOk_iff p _).mpr ?_⟩⟩
  · rw [← Bool.not_eq_true, spOk_iff]
    intro h
    apply hout
    rw [← h, BitVec.and_assoc, BitVec.and_not_self]
    exact BitVec.and_zero
  · ext k hk
    have hbit : (p.ramMatch &&& ~~~p.ramMask)[k] = false := by rw [hin, BitVec.ofNat_eq_ofNat, BitVec.getElem_zero]
    rw [BitVec.getElem_and, BitVec.getElem_not] at hbit
    rw [BitVec.getElem_and]
    cases hm : p.ramMatch[k] <;> simp_all

/-- Settles O46: it is the model's BV_CHECK on the two words with no force. -/
theorem bvCheckImageDecidesOnTheFlashWords : Obligations.BvCheckImageDecidesOnTheFlashWords :=
  ⟨fun s => ⟨rfl, _, exec_eq_effect .bvCheckImage s, rfl⟩, by decide, by decide⟩

/-- Settles O47: four bytes side by side, the one at the highest address first. -/
theorem flashWordsAreLittleEndian : Obligations.FlashWordsAreLittleEndian := by
  intro s a
  simp only [State.memRead4, append_toNat_eq]
  omega

/-- Settles O48: no operation writes flash, configuration or the model's fields, and the validator's write no field. -/
theorem validatorOperationsFrame : Obligations.ValidatorOperationsFrame := by
  intro i s t hunit h
  obtain rfl := exec_eq_next_iff.mp h
  cases i with
  | bvCheck sp rv force => simp [effect]
  | bvCheckImage => simp [effect]
  | _ => simp [Instr.blockUnit] at hunit

/-- Settles O12: the two checks in order, `APP_BASE` kept by its upper bits, and the override disabled. -/
theorem configurationIsCheckedAndKept : Obligations.ConfigurationIsCheckedAndKept := by
  refine ⟨fun p => ⟨fun h => ?_, fun h hforce => ?_, fun h hforce => ?_⟩, fun sp rv force s => ?_, fun q => ?_⟩
  · simp [State.configure, BuildParams.aligned, h]
  · simp [State.configure, BuildParams.aligned, h, hforce]
  · refine ⟨{ State.reset with cfg := paramsOf p }, ?_, rfl, appBase_paramsOf h, rfl, rfl, rfl, rfl⟩
    simp [State.configure, BuildParams.aligned, h, hforce]
  · simp only [exec_eq_effect, effect, bootOk, forceOk_eq]
  · rw [appBase_toNat, Nat.mul_mod_right]

end Sys2Proof.Machine
end

section
/-! SUPPORT. The step, by what it serves (spec/20_memory.md R62, R63). -/

namespace Sys2Proof.Machine

variable {s u : State} {a : Agent} {r : Request} {i : Instr}

/-- A step that serves a request which decodes runs its operation (R62). -/
theorem step_of_serve (hr : s.resetIn = false) (hs : s.serve = some (a, r, u)) (hd : decode a r = .ok i) :
    step s = exec i u := by
  simp [step, hr, hs, hd]

/-- With one port loaded its first request is served (R62). -/
theorem serve_of_producer {p : Request} {ps : List Request} (hp : s.producer = p :: ps) (hc : s.consumer = []) :
    s.serve = some (.producer, p, { s with producer := ps }) := by
  simp [State.serve, hp, hc]

/-- With one port loaded its first request is served (R62). -/
theorem serve_of_consumer {c : Request} {cs : List Request} (hp : s.producer = []) (hc : s.consumer = c :: cs) :
    s.serve = some (.consumer, c, { s with consumer := cs }) := by
  simp [State.serve, hp, hc]

section
variable {p c : Request} {ps cs : List Request} {t : State}

/-- With both ports loaded the producer's request is served if it goes first (R63). -/
theorem serve_of_arbitrate_producer (hp : s.producer = p :: ps) (hc : s.consumer = c :: cs)
    (ha : s.arbitrate = (.producer, t)) : s.serve = some (.producer, p, { t with producer := ps }) := by
  simp [State.serve, hp, hc, ha]

/-- With both ports loaded the consumer's request is served if it goes first (R63). -/
theorem serve_of_arbitrate_consumer (hp : s.producer = p :: ps) (hc : s.consumer = c :: cs)
    (ha : s.arbitrate = (.consumer, t)) : s.serve = some (.consumer, c, { t with consumer := cs }) := by
  simp [State.serve, hp, hc, ha]

end

/-- Where `order` names an agent, it goes first (R63). -/
theorem arbitrate_of_order {rest : List Agent} (h : s.order = a :: rest) : s.arbitrate = (a, { s with order := rest }) := by
  simp [State.arbitrate, h]

/-- Where `order` is empty, the free value names the agent that goes first (R63). -/
theorem arbitrate_of_servedFirst (h : s.order = []) (ha : Config.servedFirst s.draws = a) :
    s.arbitrate = (a, { s with draws := s.draws + 1 }) := by
  simp [State.arbitrate, h, ha]

/-- A word with an operation decodes for the agent on whose port it is presented (log 16). -/
theorem decode_of_decodeTableWord {w : Nat} (h : decodeTableWord 16 w = some i) :
    decode (Request.ofTableWord (w % 2 ^ 16)).port (Request.ofTableWord (w % 2 ^ 16)) = .ok i := by
  simp only [decodeTableWord, le_refl, if_true] at h
  split at h
  · simp_all
  · simp at h

/-- Presenting a request withdraws a pending reset (log 16). -/
@[simp] theorem presentFirst_resetIn (s : State) (a : Agent) (r : Request) : (s.presentFirst a r).resetIn = false := by
  cases a <;> rfl

/-- A request presented first is served next, and leaves the state as it was, with no reset requested (log 16). -/
theorem serve_presentFirst (s : State) (a : Agent) (r : Request) :
    (s.presentFirst a r).serve = some (a, r, { s with resetIn := false }) := by
  cases a with
  | producer =>
    cases hc : s.consumer with
    | nil => simp [State.presentFirst, State.serve, hc]
    | cons c cs => simp [State.presentFirst, State.serve, State.arbitrate, hc]
  | consumer =>
    cases hp : s.producer with
    | nil => simp [State.presentFirst, State.serve, hp]
    | cons p ps => simp [State.presentFirst, State.serve, State.arbitrate, hp]

/-- A requested reset is what the step performs (R210). -/
theorem step_of_resetIn (h : s.resetIn = true) : step s = s.resetStep := if_pos h

end Sys2Proof.Machine
end

section
/-! PROOF. Which request a step serves, reset, and what stops a step (spec/20_memory.md R62, R63; spec/60_exceptions.md R191;
spec/70_reset_and_hazards.md R210 to R213). -/

namespace Sys2Proof.Machine

/-- Settles O5: the only port loaded is served. -/
theorem stepRunsTheDecodedRequest : Obligations.StepRunsTheDecodedRequest := fun _ _ _ _ hr =>
  ⟨fun hp hc hd => step_of_serve hr (serve_of_consumer hp hc) hd,
    fun hc hp hd => step_of_serve hr (serve_of_producer hp hc) hd⟩

/-- Settles O6: arbitration by `order`, or by the free value, names the port served. -/
theorem contestedStepRunsOneOfTheTwoRequests : Obligations.ContestedStepRunsOneOfTheTwoRequests := by
  intro s p c ps cs hr hp hc
  refine ⟨fun i rest hd ho => ?_, fun j rest hd ho => ?_, fun ho => ?_⟩
  · exact step_of_serve hr (serve_of_arbitrate_producer hp hc (arbitrate_of_order ho)) hd
  · exact step_of_serve hr (serve_of_arbitrate_consumer hp hc (arbitrate_of_order ho)) hd
  · have hproducer (i : Instr) (hd : decode .producer p = .ok i) (hf : Config.servedFirst s.draws = .producer) :
        step s = exec i { s with producer := ps, draws := s.draws + 1 } :=
      step_of_serve hr (serve_of_arbitrate_producer hp hc (arbitrate_of_servedFirst ho hf)) hd
    have hconsumer (j : Instr) (hd : decode .consumer c = .ok j) (hf : Config.servedFirst s.draws = .consumer) :
        step s = exec j { s with consumer := cs, draws := s.draws + 1 } :=
      step_of_serve hr (serve_of_arbitrate_consumer hp hc (arbitrate_of_servedFirst ho hf)) hd
    refine ⟨hproducer, hconsumer, fun i j hi hj => ?_⟩
    cases hf : Config.servedFirst s.draws with
    | producer => exact .inl (hproducer i hi hf)
    | consumer => exact .inr (hconsumer j hj hf)

/-- Settles O7: the request served is refused with its own reason. -/
theorem stepRefusesWhatDoesNotDecode : Obligations.StepRefusesWhatDoesNotDecode := fun _ _ _ hr hs =>
  ⟨step_refused hr hs, step_refused hr hs, step_refused hr hs⟩

/-- Settles O8: nothing is served, so the step is idle. -/
theorem stepWithoutRequestHoldsTheState : Obligations.StepWithoutRequestHoldsTheState := by
  intro s hr hp hc
  have hserve : s.serve = none := by simp [State.serve, hp, hc]
  simp [step, hr, hserve, State.idle, State.respond, quiet]

/-- Settles O9: the step is the block's reset, field by field. -/
theorem resetStepGivesTheResetValues : Obligations.ResetStepGivesTheResetValues := by
  intro s hr hp
  have hstep : step s = .next s.blockReset := by rw [step_of_resetIn hr, State.resetStep, hp]
  exact ⟨_, hstep, rfl, rfl, rfl, rfl, rfl, rfl, rfl, rfl, rfl, rfl, rfl, rfl, rfl⟩

/-- Settles O10: the reset step refuses any pending producer's request. -/
theorem producerBeforeResetIsRefused : Obligations.ProducerBeforeResetIsRefused := by
  intro s hr hp
  obtain ⟨p, ps, hcons⟩ := List.exists_cons_of_ne_nil hp
  rw [step_of_resetIn hr, State.resetStep, hcons]

/-- Settles O11: the reset state's fields. -/
theorem resetStateHoldsTheGivenValues : Obligations.ResetStateHoldsTheGivenValues :=
  ⟨rfl, rfl, rfl, rfl, rfl, rfl⟩

/-- Settles O50: a step is a reset, idle, an operation, which completes, or a refusal of the request served. -/
theorem stepStopsOnlyForNamedRefusals : Obligations.StepStopsOnlyForNamedRefusals := by
  intro s
  refine ⟨nofun, fun r h => ?_⟩
  cases hr : s.resetIn with
  | true =>
    rw [step_of_resetIn hr, State.resetStep] at h
    cases hp : s.producer with
    | nil => simp [hp] at h
    | cons p ps =>
      simp only [hp, Host.Outcome.refused.injEq] at h
      exact .inl ⟨h.symm, rfl, by simp⟩
  | false =>
    refine .inr ⟨rfl, ?_⟩
    cases hs : s.serve with
    | none => simp [step, hr, hs] at h
    | some x =>
      obtain ⟨a, q, u⟩ := x
      cases hd : decode a q with
      | ok i => simp [step_of_serve hr hs hd, exec_eq_effect] at h
      | error e =>
        have hserves : ServesNext a q s := servesNext_iff.mpr ⟨u, hs⟩
        rw [step_refused hr hserves hd, Host.Outcome.refused.injEq] at h
        refine ⟨a, q, hserves, ?_⟩
        cases e with
        | reservedOp => exact .inl ⟨h.symm, hd⟩
        | reservedData => exact .inr (.inl ⟨h.symm, hd⟩)
        | wrongAgent => exact .inr (.inr ⟨h.symm, hd⟩)

/-- Settles O13: the word stands first on its owner's port and goes first, and serving it restores port and order. -/
theorem presentedWordIsRunByTheNextStep : Obligations.PresentedWordIsRunByTheNextStep := by
  intro s w i h
  have hdecode := decode_of_decodeTableWord h
  obtain ⟨-, howner⟩ := decode_eq_ok.mp hdecode
  exact step_of_serve (presentFirst_resetIn s _ _) (serve_presentFirst s _ _) hdecode

end Sys2Proof.Machine
end

section
/-! SUPPORT. A poll's fields and outputs, and the error kind an operation can meet (spec/42_frame_parser.md R147;
spec/60_exceptions.md R192). -/

namespace Sys2Proof.Machine

section
variable (s : State)

/-- A poll leaves the accumulator, the ring's slots and its head (R20, R26). -/
theorem poll_frame : s.poll.crcAcc = s.crcAcc ∧ s.poll.rbMem = s.rbMem ∧ s.poll.rbHead = s.rbHead := by
  cases h : s.rbEmpty with
  | true => rw [poll_of_rbEmpty h]; exact ⟨rfl, rfl, rfl⟩
  | false => rw [poll_eq_feed h]; simp

/-- A poll drives the pop's outputs and `FRAME_OUT` (R147). -/
theorem poll_out : ∃ f, s.poll.out = pollOut s.ringPop.1 f := by
  cases h : s.rbEmpty with
  | true => exact ⟨_, by rw [poll_of_rbEmpty h, ringPop_of_rbEmpty h, respond_out]⟩
  | false => exact ⟨_, by rw [poll_eq_feed h, ringPop_of_not_rbEmpty h, respond_out]⟩

end

@[simp] theorem popOut_frameOut (b : Option Byte) : (popOut b).frameOut = none := by cases b <;> rfl
@[simp] theorem popOut_bootOk (b : Option Byte) : (popOut b).bootOk = none := by cases b <;> rfl
@[simp] theorem pollOut_valid (b : Option Byte) (f : Option Frame) : (pollOut b f).valid = (popOut b).valid := rfl
@[simp] theorem pollOut_dout (b : Option Byte) (f : Option Frame) : (pollOut b f).dout = (popOut b).dout := rfl
@[simp] theorem pollOut_bootOk (b : Option Byte) (f : Option Frame) : (pollOut b f).bootOk = (popOut b).bootOk := rfl

/-- An operation that feeds a byte writes the parser's fields and `FRAME_OUT` as the byte step does (R141 to R147). -/
theorem effect_of_fedByte {i : Instr} {s : State} {d : Byte} (h : fedByte i s = some d) :
    (effect i s).psState = (s.feed d).2.psState ∧ (effect i s).psPos = (s.feed d).2.psPos ∧
      (effect i s).psBuf = (s.feed d).2.psBuf ∧ (effect i s).out.frameOut = some (s.feed d).1 := by
  cases i with
  | psFeed b =>
    obtain rfl : b = d := Option.some.inj h
    exact ⟨rfl, rfl, rfl, rfl⟩
  | psPoll =>
    cases hempty : s.rbEmpty with
    | true => simp [fedByte, hempty] at h
    | false =>
      obtain rfl : s.slot s.rbTail = d := by simpa [fedByte, hempty] using h
      rw [effect_psPoll, poll_eq_feed hempty]
      exact ⟨rfl, rfl, rfl, rfl⟩
  | _ => simp [fedByte] at h

/-- The only error kind the operation can meet in state `s` (R192). -/
def kindOf (i : Instr) (s : State) : Option ErrorKind :=
  match i with
  | .rbPush _ => some .overflow
  | .rbPop => some .empty
  | .psFeed _ => some (if s.psState = .waitStart then .sync else .crc)
  | .psPoll => some (if s.rbEmpty then .empty else if s.psState = .waitStart then .sync else .crc)
  | .bvCheck _ _ _ => some .image
  | .bvCheckImage => some .image
  | .crcInit => none
  | .crcUpdate _ => none
  | .crcRead => none
  | .crcCompute _ => none

section
variable {i : Instr} {s : State}

/-- Sync loss is met in WAIT_START, by a byte fed other than the marker (R192). -/
theorem kindMet_sync_iff : kindMet .sync i s = true ↔
    ∃ d, fedByte i s = some d ∧ s.psState = .waitStart ∧ d ≠ Config.startMarker := by
  cases h : fedByte i s <;> simp [kindMet, h, syncLost]

/-- A CRC mismatch is met in COLLECTING, by the last byte fed (R192). -/
theorem kindMet_crc_iff : kindMet .crc i s = true ↔
    ∃ d, fedByte i s = some d ∧ s.psState = .collecting ∧ s.psPos = 63 ∧ crcValid (s.psBuf.set 63 d) = false := by
  cases h : fedByte i s <;> simp [kindMet, h, crcMismatch, and_assoc]

end

/-- An error kind met is the only one the operation can meet (R194). -/
theorem kindOf_of_kindMet {k : ErrorKind} {i : Instr} {s : State} (h : kindMet k i s = true) : kindOf i s = some k := by
  cases k with
  | sync =>
    obtain ⟨d, hfed, hst, -⟩ := kindMet_sync_iff.mp h
    cases i <;> simp_all [fedByte, kindOf]
  | crc =>
    obtain ⟨d, hfed, hst, -⟩ := kindMet_crc_iff.mp h
    cases i <;> simp_all [fedByte, kindOf]
  | overflow => cases i <;> simp_all [kindMet, overflows, kindOf]
  | empty => cases i <;> simp_all [kindMet, findsEmpty, kindOf]
  | image => cases i <;> simp_all [kindMet, imageInvalid, kindOf]

end Sys2Proof.Machine
end

section
/-! PROOF. Which operation writes a field, drives an output or meets an error (spec/10_state.md R20, R26; spec/30_encoding.md R70;
spec/60_exceptions.md R192, R194). -/

namespace Sys2Proof.Machine

/-- Settles O51: an operation that is none of those named leaves the field. -/
theorem onlyTheNamedOperationsWriteAField : Obligations.OnlyTheNamedOperationsWriteAField := by
  intro i s t h
  obtain rfl := exec_eq_next_iff.mp h
  obtain ⟨hcrc, hmem, hhead⟩ := poll_frame s
  refine ⟨fun hne => ?_, fun hne => ?_, fun hne => ?_, fun hne => ?_, effect_flash i s, effect_cfg i s,
    effect_producer i s, effect_consumer i s, effect_order i s, effect_resetIn i s, effect_draws i s⟩
  · cases i with
    | crcInit | crcUpdate d | crcCompute seq => simp
    | _ => exact absurd (by simp [effect, hcrc]) hne
  · cases i with
    | rbPush d => exact ⟨⟨d, rfl⟩, rfl, by simp [effect]⟩
    | _ => simp [effect, hmem, hhead] at hne
  · cases i with
    | rbPop => exact ⟨.inl rfl, rfl, by simp [effect]⟩
    | psPoll => exact ⟨.inr rfl, rfl, hhead⟩
    | _ => exact absurd (by simp [effect]) hne
  · cases i with
    | psFeed d | psPoll => simp
    | _ => simp [effect] at hne

/-- Settles O52: the outputs, operation by operation. -/
theorem outputsAreDrivenByTheNamedOperations : Obligations.OutputsAreDrivenByTheNamedOperations := by
  intro i s t h
  obtain rfl := exec_eq_next_iff.mp h
  cases i with
  | psPoll =>
    obtain ⟨f, hout⟩ := poll_out s
    simp [effect_psPoll, hout]
  | _ => simp [effect, quiet, dataOut, frameOnly, bootOut]

/-- Settles O53: a kind met is the only one the operation can meet, and its effect is that of the case it names. -/
theorem errorKindsExcludeEachOtherAndHaveTheirEffects : Obligations.ErrorKindsExcludeEachOtherAndHaveTheirEffects := by
  intro i s t h
  obtain rfl := exec_eq_next_iff.mp h
  refine ⟨fun j k hj hk => ?_, fun hk => ?_, fun hk => ?_, fun hk => ?_, fun hk => ?_, ?_⟩
  · exact Option.some.inj ((kindOf_of_kindMet hj).symm.trans (kindOf_of_kindMet hk))
  · obtain ⟨d, hfed, hst, hd⟩ := kindMet_sync_iff.mp hk
    have heffect := effect_of_fedByte hfed
    rwa [feed_of_noise hst hd, hst] at heffect
  · obtain ⟨d, hfed, hst, hp, hinvalid⟩ := kindMet_crc_iff.mp hk
    obtain ⟨hstate, hpos, -, hframe⟩ := effect_of_fedByte hfed
    rw [feed_of_last hst hp] at hstate hpos hframe
    exact ⟨hstate, hpos, by simpa [yielded, hinvalid] using hframe⟩
  · cases i with
    | rbPush d =>
      rw [effect_rbPush, ringPush_of_rbFull hk]
      rfl
    | _ => simp [kindMet, overflows] at hk
  · cases i with
    | rbPop =>
      rw [effect_rbPop, ringPop_of_rbEmpty hk]
      exact ⟨rfl, rfl⟩
    | psPoll =>
      rw [effect_psPoll, poll_of_rbEmpty hk]
      exact ⟨rfl, rfl⟩
    | _ => simp [kindMet, findsEmpty] at hk
  · cases i with
    | bvCheck sp rv force | bvCheckImage =>
      simp only [kindMet, imageInvalid, effect, respond_out, bootOut, bootOk, forceOk_eq, Bool.and_true,
        Bool.not_eq_true', Option.some.injEq]
    | psPoll =>
      obtain ⟨f, hout⟩ := poll_out s
      simp [kindMet, imageInvalid, effect_psPoll, hout]
    | _ => simp [kindMet, imageInvalid, effect, quiet, dataOut, frameOnly]

end Sys2Proof.Machine
end

section
/-! SUPPORT. The invariant of the machine under operations and steps (spec/10_state.md R40). -/

namespace Sys2Proof.Machine

variable {s : State}

/-- A byte step keeps the parser invariant (R40). -/
theorem feed_parserInv (h : ParserInv s) (d : Byte) : ParserInv (s.feed d).2 := by
  obtain ⟨hwait, hcollect⟩ := h
  rcases feed_cases d s with ⟨_, _, e⟩ | ⟨_, hd, e⟩ | ⟨hst, hp, e⟩ | ⟨_, _, e⟩ <;> rw [e]
  · exact ⟨hwait, hcollect⟩
  · refine ⟨nofun, fun _ => ⟨le_refl 1, show 1 ≤ 63 by decide, ?_⟩⟩
    rw [hd]
    exact Vector.getElem_set_self _
  · obtain ⟨hpos, hpos', hmarker⟩ := hcollect hst
    have hnext : (s.psPos + 1).toNat = s.psPos.toNat + 1 := by bv_omega
    have hlt := (s.psPos + 1).isLt
    refine ⟨fun hst' => ?_, fun _ => ⟨?_, ?_, ?_⟩⟩
    · simp [hst] at hst'
    · rw [storeByte_psPos]; omega
    · rw [storeByte_psPos]; omega
    · simp only [storeByte_psBuf]
      rw [Vector.getElem_set_ne _ _ (by omega), hmarker]
  · exact ⟨fun _ => rfl, nofun⟩

/-- Every operation keeps the parser invariant (R40). -/
theorem effect_parserInv (h : ParserInv s) (i : Instr) : ParserInv (effect i s) := by
  cases i with
  | rbPush d => simpa only [ParserInv, effect_rbPush, respond_psState, respond_psPos, respond_psBuf, ringPush_psState,
      ringPush_psPos, ringPush_psBuf] using h
  | rbPop => simpa only [ParserInv, effect_rbPop, respond_psState, respond_psPos, respond_psBuf, ringPop_psState,
      ringPop_psPos, ringPop_psBuf] using h
  | psFeed d => exact feed_parserInv h d
  | psPoll =>
    cases hempty : s.rbEmpty with
    | true => rw [effect_psPoll, poll_of_rbEmpty hempty]; exact h
    | false => rw [effect_psPoll, poll_eq_feed hempty]; exact feed_parserInv h _
  | _ => exact h

end Sys2Proof.Machine
end

section
/-! PROOF. What every step keeps (spec/10_state.md R36, R39, R40; spec/20_memory.md R51). -/

namespace Sys2Proof.Machine

/-- Settles O54: a reset, an idle step, serving a request and every operation leave flash and configuration. -/
theorem stepNeverChangesFlashOrConfiguration : Obligations.StepNeverChangesFlashOrConfiguration := by
  intro s t h
  have hkept : t.flash = s.flash ∧ t.cfg = s.cfg := by
    rcases step_cases h with ⟨_, _, rfl⟩ | ⟨_, _, rfl⟩ | ⟨a, r, u, i, _, hserve, _, hexec⟩
    · exact ⟨rfl, rfl⟩
    · exact ⟨rfl, rfl⟩
    · obtain rfl := exec_eq_next_iff.mp hexec
      rw [effect_flash, effect_cfg, serve_frame hserve]
      exact ⟨rfl, rfl⟩
  obtain ⟨hflash, hcfg⟩ := hkept
  exact ⟨hflash, hcfg, fun a => by rw [State.flashByte, hflash, State.flashByte]⟩

/-- Settles O55: a reset restores it, and an idle step, serving a request and every operation keep it. -/
theorem stepKeepsTheMachineInvariant : Obligations.StepKeepsTheMachineInvariant := by
  intro s t hinv h
  obtain ⟨hparser, hflash⟩ := hinv
  rcases step_cases h with ⟨_, _, rfl⟩ | ⟨_, _, rfl⟩ | ⟨a, r, u, i, _, hserve, _, hexec⟩
  · exact ⟨⟨fun _ => rfl, nofun⟩, hflash⟩
  · exact ⟨hparser, hflash⟩
  · obtain rfl := exec_eq_next_iff.mp hexec
    have hserved : MachineInv u := by
      rw [serve_frame hserve]
      exact ⟨hparser, hflash⟩
    exact ⟨effect_parserInv hserved.1 i, by rw [effect_flash]; exact hserved.2⟩

/-- Settles O56: the reset state's parser waits, and its flash lists nothing. -/
theorem resetMeetsTheMachineInvariant : Obligations.ResetMeetsTheMachineInvariant :=
  ⟨⟨fun _ => rfl, nofun⟩, Memory.wf_nil⟩

end Sys2Proof.Machine
end

section
/-! SUPPORT. Every operation keeps two states alike for anyone who sees only outputs, and answers alike on them
(spec/10_state.md R23, R29, R37, R38, R41). -/

namespace Sys2Proof.Machine

namespace SameVisible

variable {s t : State}

/-- States alike are in the same parser state (R27). -/
theorem psState (h : SameVisible s t) : s.psState = t.psState := by
  obtain ⟨-, -, hstate, -⟩ := h
  exact hstate

/-- States alike have collected the same number of bytes (R28). -/
theorem psPos (h : SameVisible s t) (hst : s.psState = .collecting) : s.psPos = t.psPos := by
  obtain ⟨-, -, -, hframe, -⟩ := h
  obtain ⟨hpos, -⟩ := hframe hst
  exact hpos

/-- States with the same queue are full together (R33). -/
theorem rbFull (h : SameVisible s t) : s.rbFull = t.rbFull := by
  obtain ⟨-, hring, -⟩ := h
  rw [Bool.eq_iff_iff, rbFull_iff_length, rbFull_iff_length, hring]

/-- States with the same queue are empty together (R32). -/
theorem rbEmpty (h : SameVisible s t) : s.rbEmpty = t.rbEmpty := by
  obtain ⟨-, hring, -⟩ := h
  rw [Bool.eq_iff_iff, rbEmpty_iff_ringContents, rbEmpty_iff_ringContents, hring]

/-- States with the same queue answer a pop alike (R123). -/
theorem ringPop_fst (h : SameVisible s t) : s.ringPop.1 = t.ringPop.1 := by
  obtain ⟨-, hring, -⟩ := h
  rw [Machine.ringPop_fst, Machine.ringPop_fst, hring]

/-- The same flash reads the same words (R53). -/
theorem memRead4 (h : SameVisible s t) (a : Nat) : s.memRead4 a = t.memRead4 a := by
  obtain ⟨-, -, -, -, -, hflash⟩ := h
  simp only [State.memRead4, hflash]

/-- Outputs in the state do not count. -/
theorem respond (h : SameVisible s t) (q r : Response) : SameVisible (s.respond q) (t.respond r) := h

/-- The same accumulator. -/
theorem setCrc (h : SameVisible s t) (a : Byte) : SameVisible (s.setCrc a) (t.setCrc a) := ⟨rfl, h.2⟩

/-- A change of the ring that leaves the same queue, and of nothing else, keeps states alike. -/
theorem of_ring (h : SameVisible s t) {s' t' : State}
    (hs : s' = { s with rbMem := s'.rbMem, rbHead := s'.rbHead, rbTail := s'.rbTail })
    (ht : t' = { t with rbMem := t'.rbMem, rbHead := t'.rbHead, rbTail := t'.rbTail })
    (hring : ringContents s' = ringContents t') : SameVisible s' t' := by
  obtain ⟨hcrc, -, hparser⟩ := h
  refine ⟨?_, hring, ?_⟩
  · rw [hs, ht]; exact hcrc
  · rw [hs, ht]; exact hparser

/-- A push keeps states alike (R122). -/
theorem ringPush (h : SameVisible s t) (d : Byte) : SameVisible (s.ringPush d) (t.ringPush d) := by
  refine h.of_ring ?_ ?_ ?_
  · rw [ringPush_frame]
  · rw [ringPush_frame]
  · obtain ⟨-, hring, -⟩ := h
    rw [ringContents_ringPush, ringContents_ringPush, hring]

/-- A pop keeps states alike (R123). -/
theorem ringPop (h : SameVisible s t) : SameVisible s.ringPop.2 t.ringPop.2 := by
  refine h.of_ring ?_ ?_ ?_
  · rw [ringPop_frame]
  · rw [ringPop_frame]
  · obtain ⟨-, hring, -⟩ := h
    rw [ringContents_ringPop, ringContents_ringPop, hring]

/-- Opening a frame stores the same first byte (R141). -/
theorem openFrame (h : SameVisible s t) (d : Byte) : SameVisible (s.openFrame d) (t.openFrame d) := by
  obtain ⟨hcrc, hring, -, -, hcfg, hflash⟩ := h
  refine ⟨hcrc, hring, rfl, fun _ => ⟨rfl, fun i hi hlt => ?_⟩, hcfg, hflash⟩
  obtain rfl : i = 0 := Nat.lt_one_iff.mp hlt
  simp only [openFrame_psBuf, Vector.getElem_set_self]

/-- Storing a byte of a frame keeps the bytes stored the same (R142). -/
theorem storeByte (h : SameVisible s t) (hst : s.psState = .collecting) (d : Byte) :
    SameVisible (s.storeByte d) (t.storeByte d) := by
  obtain ⟨hcrc, hring, hstate, hframe, hcfg, hflash⟩ := h
  obtain ⟨hpos, hbytes⟩ := hframe hst
  refine ⟨hcrc, hring, hstate, fun _ => ⟨congrArg (· + 1) hpos, fun i hi hlt => ?_⟩, hcfg, hflash⟩
  have hle : i ≤ s.psPos.toNat := by
    rw [storeByte_psPos] at hlt
    bv_omega
  simp only [storeByte_psBuf, ← hpos, Vector.getElem_set]
  split
  · rfl
  · exact hbytes i hi (by omega)

/-- Closing a frame leaves nothing stored (R143). -/
theorem closeFrame (h : SameVisible s t) (d : Byte) : SameVisible (s.closeFrame d) (t.closeFrame d) := by
  obtain ⟨hcrc, hring, -, -, hcfg, hflash⟩ := h
  exact ⟨hcrc, hring, rfl, nofun, hcfg, hflash⟩

/-- The frame completed at position 63 consists of bytes stored before and the last (R143). -/
theorem psBuf_set_last (h : SameVisible s t) (hst : s.psState = .collecting) (hp : s.psPos = 63) (d : Byte) :
    s.psBuf.set 63 d = t.psBuf.set 63 d := by
  obtain ⟨-, -, -, hframe, -⟩ := h
  obtain ⟨-, hbytes⟩ := hframe hst
  rw [hp] at hbytes
  refine Vector.ext fun i hi => ?_
  simp only [Vector.getElem_set]
  split
  · rfl
  · exact hbytes i hi (show i < 63 by omega)

/-- A byte step yields the same on states alike, and keeps them alike: it reads only bytes of the frame stored before
(R141 to R143). -/
theorem feed (h : SameVisible s t) (d : Byte) :
    (s.feed d).1 = (t.feed d).1 ∧ SameVisible (s.feed d).2 (t.feed d).2 := by
  have hstate := h.psState
  rcases feed_cases d s with ⟨hst, hd, e⟩ | ⟨hst, hd, e⟩ | ⟨hst, hp, e⟩ | ⟨hst, hp, e⟩
  · rw [e, feed_of_noise (hstate.symm.trans hst) hd]
    exact ⟨rfl, h⟩
  · rw [e, feed_of_marker (hstate.symm.trans hst) hd]
    exact ⟨rfl, h.openFrame d⟩
  · have hpos := (h.psPos hst).symm
    rw [e, feed_of_inside (hstate.symm.trans hst) (by rwa [hpos])]
    exact ⟨rfl, h.storeByte hst d⟩
  · have hpos := (h.psPos hst).symm
    rw [e, feed_of_last (hstate.symm.trans hst) (hpos.trans hp), closeFrame_psBuf, h.psBuf_set_last hst hp]
    exact ⟨rfl, h.closeFrame d⟩

/-- A poll answers the same on states alike, and keeps them alike (R147). -/
theorem poll (h : SameVisible s t) : s.poll.out = t.poll.out ∧ SameVisible s.poll t.poll := by
  have hempty := h.rbEmpty
  have hbyte := h.ringPop_fst
  have hpopped := h.ringPop
  cases hs : s.rbEmpty with
  | true =>
    rw [poll_of_rbEmpty hs, poll_of_rbEmpty (hempty.symm.trans hs)]
    exact ⟨rfl, h.respond _ _⟩
  | false =>
    have ht := hempty.symm.trans hs
    rw [ringPop_of_not_rbEmpty hs, ringPop_of_not_rbEmpty ht] at hbyte hpopped
    obtain ⟨hframe, hfed⟩ := hpopped.feed (s.slot s.rbTail)
    rw [poll_of_not_rbEmpty hs, poll_of_not_rbEmpty ht, ← Option.some.inj hbyte]
    exact ⟨congrArg (pollOut _) hframe, hfed.respond _ _⟩

/-- An operation answers the same on states alike, and keeps them alike (R38). -/
theorem effect (h : SameVisible s t) (i : Instr) :
    (effect i s).out = (effect i t).out ∧ SameVisible (effect i s) (effect i t) := by
  obtain ⟨hcrc, -, -, -, hcfg, -⟩ := id h
  cases i with
  | crcInit => exact ⟨rfl, (h.setCrc _).respond _ _⟩
  | crcUpdate d =>
    simp only [Machine.effect, hcrc]
    exact ⟨rfl, (h.setCrc _).respond _ _⟩
  | crcRead => exact ⟨congrArg dataOut hcrc, h.respond _ _⟩
  | crcCompute seq => exact ⟨rfl, (h.setCrc _).respond _ _⟩
  | rbPush d => exact ⟨rfl, (h.ringPush d).respond _ _⟩
  | rbPop => exact ⟨congrArg popOut h.ringPop_fst, h.ringPop.respond _ _⟩
  | psFeed d =>
    obtain ⟨hframe, hfed⟩ := h.feed d
    exact ⟨congrArg frameOnly hframe, hfed.respond _ _⟩
  | psPoll => exact h.poll
  | bvCheck sp rv force =>
    simp only [Machine.effect, hcfg]
    exact ⟨rfl, h.respond _ _⟩
  | bvCheckImage =>
    simp only [Machine.effect, State.spWord, State.rvWord, hcfg, h.memRead4]
    exact ⟨rfl, h.respond _ _⟩

end SameVisible

end Sys2Proof.Machine
end

section
/-! PROOF. What no output shows (spec/10_state.md R23, R29, R37, R38, R41). -/

namespace Sys2Proof.Machine

/-- Settles O57: by induction over the operations, each of which answers alike and keeps the states alike. -/
theorem unwrittenStorageIsNeverObservable : Obligations.UnwrittenStorageIsNeverObservable := by
  intro is s t h
  induction is generalizing s t with
  | nil => rfl
  | cons i is ih =>
    obtain ⟨hout, hnext⟩ := h.effect i
    rw [outputs_cons, outputs_cons, hout, ih _ _ hnext]

end Sys2Proof.Machine
end

section
/-! SUPPORT. Serving the requests of both agents (spec/20_memory.md R62, R63): a step of a machine loaded with both sequences
performs the next operation of one of them. -/

namespace Sys2Proof.Machine

/-- The state with the given requests pending, order of service and count of free values. -/
def State.withService (ps cs : List Request) (o : List Agent) (n : Nat) (s : State) : State :=
  { s with producer := ps, consumer := cs, order := o, draws := n }

/-- The state with both agents' operations issued (R62). -/
def State.loaded (ps cs : List Instr) (o : List Agent) (n : Nat) (s : State) : State :=
  s.withService (ps.map encode) (cs.map encode) o n

/-- No operation reads or writes what serves requests (R20). -/
theorem unnoticed_withService (ps cs : List Request) (o : List Agent) (n : Nat) :
    Unnoticed (State.withService ps cs o n) where
  psState _ := rfl
  psPos _ := rfl
  psBuf _ := rfl
  openFrame _ _ := rfl
  storeByte _ _ := rfl
  closeFrame _ _ := rfl
  crcAcc _ := rfl
  rbMem _ := rfl
  rbHead _ := rfl
  rbTail _ := rfl
  flash _ := rfl
  cfg _ := rfl
  setCrc _ _ := rfl
  push _ _ := rfl
  popAdvance _ := rfl
  respond _ _ _ := rfl

/-- An operation on a loaded state (R20). -/
theorem effect_loaded (i : Instr) (ps cs : List Instr) (o : List Agent) (n : Nat) (s : State) :
    effect i (s.loaded ps cs o n) = (effect i s).loaded ps cs o n :=
  (unnoticed_withService _ _ o n).effect s i

/-- Operations on a loaded state (R20). -/
theorem runState_loaded (is ps cs : List Instr) (o : List Agent) (n : Nat) (s : State) :
    runState is (s.loaded ps cs o n) = (runState is s).loaded ps cs o n := by
  induction is generalizing s with
  | nil => rfl
  | cons i is ih => rw [runState_cons, effect_loaded, ih, runState_cons]

/-- Operations from a state with no request pending leave none pending, and order and free values as they were (R20). -/
theorem runState_eq_loaded {s : State} (hp : s.producer = []) (hc : s.consumer = []) (is : List Instr) :
    runState is s = (runState is s).loaded [] [] s.order s.draws := by
  have hs : s = s.loaded [] [] s.order s.draws := by
    cases s
    simp_all [State.loaded, State.withService]
  conv_lhs => rw [hs]
  exact runState_loaded is [] [] s.order s.draws s

section
variable {s : State} {p c : Instr} {ps cs : List Instr} {o : List Agent} {n : Nat}

/-- An encoded operation decodes for its owner (R12, R71). -/
theorem decode_encode_of_owner {a : Agent} {i : Instr} (h : i.owner = a) : decode a (encode i) = .ok i :=
  h ▸ decode_encode_owner i

/-- A step that serves the next operation's request performs it, with what serves requests as serving it leaves it (R62). -/
theorem step_loaded_of_serve {a : Agent} {i : Instr} {ps' cs' : List Instr} {o' : List Agent} {n' : Nat}
    (hr : s.resetIn = false) (hi : i.owner = a)
    (hs : (s.loaded ps cs o n).serve = some (a, encode i, s.loaded ps' cs' o' n')) :
    step (s.loaded ps cs o n) = .next ((effect i s).loaded ps' cs' o' n') := by
  have hreset : (s.loaded ps cs o n).resetIn = false := hr
  rw [step_of_serve hreset hs (decode_encode_of_owner hi), exec_eq_effect, effect_loaded]

/-- With operations of one agent left, its next is performed (R62). -/
theorem step_loaded_producer (hr : s.resetIn = false) (hp : p.owner = .producer) :
    step (s.loaded (p :: ps) [] o n) = .next ((effect p s).loaded ps [] o n) :=
  step_loaded_of_serve hr hp (serve_of_producer rfl rfl)

/-- With operations of one agent left, its next is performed (R62). -/
theorem step_loaded_consumer (hr : s.resetIn = false) (hc : c.owner = .consumer) :
    step (s.loaded [] (c :: cs) o n) = .next ((effect c s).loaded [] cs o n) :=
  step_loaded_of_serve hr hc (serve_of_consumer rfl rfl)

/-- With operations of both agents left, the producer's next is performed where `order` says so (R63). -/
theorem step_loaded_order_producer (hr : s.resetIn = false) (hp : p.owner = .producer) :
    step (s.loaded (p :: ps) (c :: cs) (.producer :: o) n) = .next ((effect p s).loaded ps (c :: cs) o n) :=
  step_loaded_of_serve hr hp (serve_of_arbitrate_producer rfl rfl (arbitrate_of_order rfl))

/-- With operations of both agents left, the consumer's next is performed where `order` says so (R63). -/
theorem step_loaded_order_consumer (hr : s.resetIn = false) (hc : c.owner = .consumer) :
    step (s.loaded (p :: ps) (c :: cs) (.consumer :: o) n) = .next ((effect c s).loaded (p :: ps) cs o n) :=
  step_loaded_of_serve hr hc (serve_of_arbitrate_consumer rfl rfl (arbitrate_of_order rfl))

/-- With operations of both agents left, the next of one of them is performed, whatever `order` and the free value say (R63). -/
theorem step_loaded_contested (hr : s.resetIn = false) (hp : p.owner = .producer) (hc : c.owner = .consumer)
    (ps cs : List Instr) (o : List Agent) (n : Nat) : ∃ o' n',
    step (s.loaded (p :: ps) (c :: cs) o n) = .next ((effect p s).loaded ps (c :: cs) o' n') ∨
      step (s.loaded (p :: ps) (c :: cs) o n) = .next ((effect c s).loaded (p :: ps) cs o' n') := by
  cases o with
  | cons a o =>
    cases a with
    | producer => exact ⟨o, n, .inl (step_loaded_order_producer hr hp)⟩
    | consumer => exact ⟨o, n, .inr (step_loaded_order_consumer hr hc)⟩
  | nil =>
    cases hf : Config.servedFirst n with
    | producer =>
      have harb := arbitrate_of_servedFirst (s := s.loaded (p :: ps) (c :: cs) [] n) rfl hf
      exact ⟨[], n + 1, .inl (step_loaded_of_serve hr hp (serve_of_arbitrate_producer rfl rfl harb))⟩
    | consumer =>
      have harb := arbitrate_of_servedFirst (s := s.loaded (p :: ps) (c :: cs) [] n) rfl hf
      exact ⟨[], n + 1, .inr (step_loaded_of_serve hr hc (serve_of_arbitrate_consumer rfl rfl harb))⟩

/-- Some order of service performs the producer's next operation first (R63). -/
theorem exists_order_producer (hr : s.resetIn = false) (hp : p.owner = .producer) (ps cs : List Instr)
    (o : List Agent) (n : Nat) :
    ∃ o', step (s.loaded (p :: ps) cs o' n) = .next ((effect p s).loaded ps cs o n) := by
  cases cs with
  | nil => exact ⟨o, step_loaded_producer hr hp⟩
  | cons c cs => exact ⟨.producer :: o, step_loaded_order_producer hr hp⟩

/-- Some order of service performs the consumer's next operation first (R63). -/
theorem exists_order_consumer (hr : s.resetIn = false) (hc : c.owner = .consumer) (ps cs : List Instr)
    (o : List Agent) (n : Nat) :
    ∃ o', step (s.loaded ps (c :: cs) o' n) = .next ((effect c s).loaded ps cs o n) := by
  cases ps with
  | nil => exact ⟨o, step_loaded_consumer hr hc⟩
  | cons p ps => exact ⟨.consumer :: o, step_loaded_order_consumer hr hc⟩

/-- A step that goes on, and the rest of the run. -/
theorem core_run_of_step {k : Nat} {u t : State} (h : step u = .next t) : core.run (k + 1) u = core.run k t := by
  rw [core_run_succ, h]

/-- Every merge has an order of service that performs it (R63): by induction over the merge. -/
theorem exists_order_of_merge {ps cs m : List Instr} (hm : Merge ps cs m) (hps : ∀ p ∈ ps, p.owner = .producer)
    (hcs : ∀ c ∈ cs, c.owner = .consumer) (s : State) (hr : s.resetIn = false) (n : Nat) :
    ∃ o, core.run m.length (s.loaded ps cs o n) = .next ((runState m s).loaded [] [] [] n) := by
  induction hm generalizing s with
  | nil => exact ⟨[], rfl⟩
  | @producer p ps cs m _ ih =>
    obtain ⟨hp, hps⟩ := List.forall_mem_cons.mp hps
    obtain ⟨o, ho⟩ := ih hps hcs (effect p s) (by rw [effect_resetIn, hr])
    obtain ⟨o', ho'⟩ := exists_order_producer hr hp ps cs o n
    exact ⟨o', by rw [List.length_cons, core_run_of_step ho', ho, runState_cons]⟩
  | @consumer c ps cs m _ ih =>
    obtain ⟨hc, hcs⟩ := List.forall_mem_cons.mp hcs
    obtain ⟨o, ho⟩ := ih hps hcs (effect c s) (by rw [effect_resetIn, hr])
    obtain ⟨o', ho'⟩ := exists_order_consumer hr hc ps cs o n
    exact ⟨o', by rw [List.length_cons, core_run_of_step ho', ho, runState_cons]⟩

/-- `k` steps from `u` end, but for what serves requests, as some merge of `ps` and `cs` does from `s`. -/
def RunsAsMerge (k : Nat) (ps cs : List Instr) (u s : State) : Prop :=
  ∃ m o n, Merge ps cs m ∧ core.run k u = .next ((runState m s).loaded [] [] o n)

section
variable {k : Nat} {u u' : State}

/-- A step that performs the producer's next operation. -/
theorem RunsAsMerge.producer (h : RunsAsMerge k ps cs u' (effect p s)) (hstep : step u = .next u') :
    RunsAsMerge (k + 1) (p :: ps) cs u s := by
  obtain ⟨m, o, n, hm, hrun⟩ := h
  exact ⟨p :: m, o, n, .producer hm, by rw [core_run_of_step hstep, hrun, runState_cons]⟩

/-- A step that performs the consumer's next operation. -/
theorem RunsAsMerge.consumer (h : RunsAsMerge k ps cs u' (effect c s)) (hstep : step u = .next u') :
    RunsAsMerge (k + 1) ps (c :: cs) u s := by
  obtain ⟨m, o, n, hm, hrun⟩ := h
  exact ⟨c :: m, o, n, .consumer hm, by rw [core_run_of_step hstep, hrun, runState_cons]⟩

end

/-- Every order of service performs some merge (R62): by induction over the number of operations left. -/
theorem runsAsMerge_loaded {k : Nat} (hk : ps.length + cs.length = k) (hps : ∀ p ∈ ps, p.owner = .producer)
    (hcs : ∀ c ∈ cs, c.owner = .consumer) (hr : s.resetIn = false) (o : List Agent) (n : Nat) :
    RunsAsMerge k ps cs (s.loaded ps cs o n) s := by
  induction k generalizing ps cs s o n with
  | zero =>
    obtain ⟨hps0, hcs0⟩ := Nat.add_eq_zero_iff.mp hk
    obtain rfl := List.length_eq_zero_iff.mp hps0
    obtain rfl := List.length_eq_zero_iff.mp hcs0
    exact ⟨[], o, n, .nil, rfl⟩
  | succ k ih =>
    have hreset (i : Instr) : (effect i s).resetIn = false := by rw [effect_resetIn, hr]
    cases ps with
    | nil =>
      cases cs with
      | nil => simp at hk
      | cons c cs =>
        obtain ⟨hc, hcs⟩ := List.forall_mem_cons.mp hcs
        have hrest := ih (by simpa using hk) hps hcs (hreset c) o n
        exact hrest.consumer (step_loaded_consumer hr hc)
    | cons p ps =>
      obtain ⟨hp, hps'⟩ := List.forall_mem_cons.mp hps
      rw [List.length_cons] at hk
      cases cs with
      | nil =>
        have hrest := ih (by omega) hps' hcs (hreset p) o n
        exact hrest.producer (step_loaded_producer hr hp)
      | cons c cs =>
        obtain ⟨hc, hcs'⟩ := List.forall_mem_cons.mp hcs
        obtain ⟨o', n', hstep | hstep⟩ := step_loaded_contested hr hp hc ps cs o n
        · exact (ih (by omega) hps' hcs (hreset p) o' n').producer hstep
        · exact (ih (by rw [List.length_cons] at hk ⊢; omega) hps hcs' (hreset c) o' n').consumer hstep

end

end Sys2Proof.Machine
end

section
/-! PROOF. The runs of the machine are the merges of the two agents' sequences (spec/20_memory.md R62, R63). -/

namespace Sys2Proof.Machine

/-- Settles O58: an order of service for the merge, used up by the run. -/
theorem everyMergeOfTheAgentsIsAdmitted : Obligations.EveryMergeOfTheAgentsIsAdmitted := by
  intro ps cs m s hps hcs hm hp hc ho hr
  obtain ⟨o, hrun⟩ := exists_order_of_merge hm hps hcs s hr s.draws
  refine ⟨o, ?_⟩
  rw [runAll_eq, runState_eq_loaded hp hc, ho]
  exact hrun

/-- Settles O59: the merge performed, of which the run's last state differs at most in what serves requests. -/
theorem everyRunIsAMergeOfTheAgents : Obligations.EveryRunIsAMergeOfTheAgents := by
  intro ps cs s hps hcs hp hc hr
  obtain ⟨m, o, n, hm, hrun⟩ := runsAsMerge_loaded rfl hps hcs hr s.order s.draws
  refine ⟨m, _, _, hm, runAll_eq m s, hrun, ?_⟩
  rw [runState_eq_loaded hp hc]
  rfl

end Sys2Proof.Machine
end
